-- ==== Sys2Proof/Word.lean ====
section
/-! DEFINITION. The word types of the MF-420: bytes of the wire forms, 16-bit counts, 32-bit station time. -/

namespace Sys2Proof

/-- A character, a byte of a wire form or of the configuration image. -/
abbrev Byte := BitVec 8

/-- A 16-bit count: start counts, change numbers, statistics counters (R12, R111, R179). -/
abbrev Half := BitVec 16

/-- Station time: a 32-bit count of whole seconds (R185). -/
abbrev Time := BitVec 32

end Sys2Proof
end

