-- ==== Sys2Proof/Syntax.lean ====
section
/-! DEFINITION. The commands of the MF-420: one constructor for each row of spec/opcode_table.json. A command is one
event of the part (95), with the values the outside gives it. -/

namespace Sys2Proof

/-- A command. Operands are what the event brings from outside: a measured value, a character, a pin level, an
acknowledgement of the memory, or the parameters of a console request as they stand on the line. -/
inductive Instr where
  /-- POWER_ON_RESET: the RESET pin is asserted (R187). -/
  | powerOnReset
  /-- IMAGE_READ_DONE: the image read ends; `acked` tells whether the memory acknowledged it (R183). -/
  | imageReadDone (acked : Bool)
  /-- START_RECORD_WRITE_DONE: the start-record write and its poll end, acknowledged or not (R184). `levels` are the
  electrical levels of the cabinet inputs (bit i is input i), sampled as instant 0 if the station enters RUN (R76). -/
  | startRecordWriteDone (acked : Bool) (levels : BitVec 8)
  /-- MEMORY_POLL_TIMEOUT: the 10 ms completion poll of the write in progress expires (R184); `levels` as above. -/
  | memoryPollTimeout (levels : BitVec 8)
  /-- RESTART_TAKES_EFFECT (R174, R187). -/
  | restartTakesEffect
  /-- LAMP_SENSE_TICK of one channel; `current` in units of 10 mA, as it reaches the converter (R23). -/
  | lampSenseTick (channel : Fin 16) (current : Nat)
  /-- INPUT_POINT_SAMPLE: the 1 s tick of one input (R78). -/
  | inputPointSample (input : Fin 8)
  /-- INPUT_SAMPLE_INSTANT: the eight levels at a 16 Hz instant, bit i for input i, 1 for high (R76). -/
  | inputSampleInstant (levels : BitVec 8)
  /-- GATE_COMPLETION of one channel with the cycles counted (R39). -/
  | gateCompletion (channel : Fin 16) (count : Nat)
  /-- POLL_CYCLE_DUE (R63). -/
  | pollCycleDue
  /-- SIGN_REQUEST_END (R65). -/
  | signRequestEnd
  /-- SIGN_CHARACTER_RECEIVED with its value, ninth bit and framing error (R57, R66). -/
  | signCharacterReceived (value : Byte) (marker framing : Bool)
  /-- REPLY_TIMEOUT_EXPIRY (R66). -/
  | replyTimeoutExpiry
  /-- GUARD_EXPIRY (R64). -/
  | guardExpiry
  /-- TRUNK_CHARACTER_RECEIVED with its value and framing error (R144, R148). -/
  | trunkCharacterReceived (value : Byte) (framing : Bool)
  /-- CD_ACTIVE (R150). -/
  | cdActive
  /-- CD_INACTIVE (R149, R150). -/
  | cdInactive
  /-- SLOT_EXPIRY (R155). -/
  | slotExpiry
  /-- KEYUP_DELAY_EXPIRY (R157). -/
  | keyupDelayExpiry
  /-- SEND_COMPLETE (R157). -/
  | sendComplete
  /-- MINUTE_SCAN (R101). -/
  | minuteScan
  /-- SILENCE_CHECK (R119). -/
  | silenceCheck
  /-- PRESENCE_TIME (R117). -/
  | presenceTime
  /-- REFRESH (R138). -/
  | refresh
  /-- CONSOLE_BYTE_RECEIVED with its value and framing error (R171, R172). -/
  | consoleByteReceived (value : Byte) (framing : Bool)
  /-- GAP_TIME_EXPIRY (R172). -/
  | gapTimeExpiry
  /-- REPLY_END (R173). -/
  | replyEnd
  /-- STATUS (R177). -/
  | status
  /-- READ_TOP(n) (R107). -/
  | readTop (n : Byte)
  /-- READ_NEXT(key) (R85). -/
  | readNext (origin point : Byte)
  /-- READ_ENTRY(key) (R84). -/
  | readEntry (origin point : Byte)
  /-- ACKNOWLEDGE(key, stamp, operator) (R108). -/
  | acknowledge (origin point : Byte) (start change : Half) (operator : Byte)
  /-- TAKE(operator) (R165). -/
  | take (operator : Byte)
  /-- FINISH (R166). -/
  | finish
  /-- SET_LEVEL(n) (R167). -/
  | setLevel (n : Byte)
  /-- READ_POINT(p) (R178). -/
  | readPoint (p : Byte)
  /-- INHIBIT(p) (R15). -/
  | inhibit (p : Byte)
  /-- RELEASE(p) (R18). -/
  | release (p : Byte)
  /-- READ_ROLL(station) (R111). -/
  | readRoll (station : Byte)
  /-- READ_COUNTERS(clear flag) (R181). -/
  | readCounters (clear : Byte)
  /-- TRUNK_ENABLE (R159). -/
  | trunkEnable
  /-- TRUNK_DISABLE (R158). -/
  | trunkDisable
  /-- TRUNK_FLUSH (R140, R160). -/
  | trunkFlush
  /-- SIGN_STOP (R71). -/
  | signStop
  /-- SIGN_START (R72). -/
  | signStart
  /-- WRITE_CONFIG(offset, bytes) (R188). -/
  | writeConfig (offset : Half) (bytes : List Byte)
  /-- CONFIG_WRITE_DONE: the configuration write and its poll end, acknowledged or not (R188). -/
  | configWriteDone (acked : Bool)
  /-- RESTART (R174). -/
  | restart
  /-- RESET_PIN_RELEASE (R187). -/
  | resetPinRelease
  deriving DecidableEq, Repr

end Sys2Proof
end

