-- ==== Sys2Proof/Config.lean ====
section
/-! DEFINITION. The settings a station takes from its image (Table 12.1), as types, and the free values:
what the manual leaves open, as constants with no body. -/

namespace Sys2Proof

/-- The five numbers of one family's parameter set (R6, Table 1.5). -/
structure FamilyParams where
  up : Nat
  down : Nat
  on : Nat
  off : Nat
  confirm : Nat
  deriving DecidableEq, Repr

/-- The settings of a LAMP channel (R24, Table 2.2), its demand and supply inputs as resolved at load (R25). -/
structure LampCfg where
  reference : Nat
  warmUp : Nat
  overLimit : Nat
  normalLow : Nat
  outLimit : Nat
  dayThreshold : Nat
  /-- The DEMAND input that is the demand source, or none (R25). -/
  demand : Option Nat
  /-- The MAINS input whose point is the supply point, or none (R25). -/
  supply : Option Nat
  deriving DecidableEq, Repr

/-- The settings of a LOOP channel (R40, Table 3.1). -/
structure LoopCfg where
  nominal : Nat
  openFloor : Nat
  detect : Nat
  shortLimit : Nat
  driftLimit : Nat
  maxPresence : Nat
  maxSilence : Nat
  deriving DecidableEq, Repr

/-- A sense channel's configured kind with its settings (Table 1.1). -/
inductive ChannelCfg where
  | off
  | lamp (c : LampCfg)
  | loop (c : LoopCfg)
  deriving DecidableEq, Repr

/-- A sign record of the image (R58). -/
structure SignCfg where
  present : Bool
  pixelLimit : Nat
  deriving DecidableEq, Repr

/-- The role of a cabinet input (R75). -/
inductive Role where
  | unused
  | demand
  | mains
  | door
  | general
  deriving DecidableEq, Repr

/-- An input record of the image (R75, Table 5.1). -/
structure InputCfg where
  role : Role
  activeHigh : Bool
  filter : Bool
  deriving DecidableEq, Repr

/-- The clamped settings of the station: fixed from one start to the next (00 section 1.2, R185). -/
structure Settings where
  /-- Trunk rate code 0..3 (R144). -/
  trunkRate : Nat
  /-- Slot time in ms (R144). -/
  slotTime : Nat
  /-- Key-up delay in ms (R144). -/
  keyUpDelay : Nat
  /-- Initial hop budget (R141). -/
  hopBudget : Nat
  /-- Suppression limit (R141). -/
  suppression : Nat
  /-- Refresh interval in minutes, 0 off (R141). -/
  refresh : Nat
  /-- Presence interval in minutes (R117). -/
  presence : Nat
  /-- Silence limit in minutes, 0 off (R119). -/
  silence : Nat
  /-- Retire hold in minutes (R100). -/
  retireHold : Nat
  /-- Correction holdoff in seconds (R141). -/
  holdoff : Nat
  /-- Condense-on, units of 64 bytes (R141). -/
  condenseOn : Nat
  /-- Condense-off, units of 64 bytes (R141). -/
  condenseOff : Nat
  /-- Condense floor (R141). -/
  condenseFloor : Nat
  /-- Start level of the Attention Unit (R162). -/
  startLevel : Nat
  /-- Gate length code 0..2 (R40). -/
  gateCode : Nat
  /-- Severity of the kinds 1..18, in code order (R3). -/
  severity : Vector Nat 18
  lamp : FamilyParams
  loop : FamilyParams
  sign : FamilyParams
  input : FamilyParams
  channels : Vector ChannelCfg 16
  /-- Sign line rate code 0..4 (R58). -/
  signRate : Nat
  /-- Poll interval in seconds (R58). -/
  pollInterval : Nat
  /-- Reply timeout in ms (R58). -/
  replyTimeout : Nat
  signs : Vector SignCfg 8
  inputs : Vector InputCfg 8
  deriving DecidableEq, Repr

namespace Config

/-- FREE VALUE. A byte the manual does not fix: what a memory cell holds after a power-on reset cut the write of it
(R187, log 7). -/
opaque freeByte : Nat → Byte

/-- FREE VALUE. A choice the manual does not fix: whether a byte of a failed write was written (R188, log 6), and which
of two waiting memory writes runs first (R184, R188, log 8). -/
opaque freeBit : Nat → Bool

end Config

end Sys2Proof
end

