-- ==== Sys2Proof/Machine/Defaults.lean ====
section
/-! DEFINITION. The default settings of the owner chapters, as a station in LISTEN uses them (R186). -/

namespace Sys2Proof

/-- The settings a station has in LISTEN: each owner chapter's default (R186), no channel, sign or input in use. -/
def Settings.listen : Settings where
  trunkRate := 2
  slotTime := 20
  keyUpDelay := 30
  hopBudget := 3
  suppression := 2
  refresh := 30
  presence := 15
  silence := 60
  retireHold := 60
  holdoff := 60
  condenseOn := 24
  condenseOff := 8
  condenseFloor := 3
  startLevel := 0
  gateCode := 1
  severity := ⟨#[4, 3, 5, 2, 5, 5, 2, 4, 3, 4, 6, 5, 3, 2, 6, 3, 3, 5], rfl⟩
  lamp := ⟨1, 1, 30, 10, 3⟩
  loop := ⟨2, 1, 40, 10, 3⟩
  sign := ⟨15, 15, 45, 15, 1⟩
  input := ⟨4, 4, 8, 0, 1⟩
  channels := .replicate 16 .off
  signRate := 3
  pollInterval := 10
  replyTimeout := 200
  signs := .replicate 8 ⟨false, 64⟩
  inputs := .replicate 8 ⟨.unused, false, true⟩

end Sys2Proof
end

