-- ==== Sys2Proof/Machine/State.lean ====
section
/-! DEFINITION. The state of the MF-420 as plain data: every register, record, queue, flag and pin the spec names
(INVENTORY.md lists them with their rules), and `State.reset`. The blocks that share the county stream stand in nested
structures (`QueueSide`, `ViewSide`, `County`), so that an operation of one block leaves the others alone by its type. -/

namespace Sys2Proof.Machine

/-! ## Names the manual gives to alternatives -/

/-- The 18 fault kinds, in code order (Table 1.2). -/
inductive Kind where
  | lampOut | lampPartial | lampOvercurrent | dayBurning
  | loopOpen | loopShort | loopDrift | loopStuck | loopSilent
  | signComm | signPower | signReported | signPixelLoss | signDoor
  | mainsLost | doorOpen | inputActive
  | stationSilent
  deriving DecidableEq, Repr

/-- The family of a local point (Table 1.1). -/
inductive Family where
  | lamp | loop | sign | input
  deriving DecidableEq, Repr

/-- The class of a sample (R4). -/
inductive SampleClass where
  | normal
  | abnormal (k : Kind)
  | neutral
  deriving DecidableEq, Repr

/-- The declared state of a point with its declared kind, which is present only in FAULT (R5). -/
inductive Declared where
  | unused
  | normal
  | fault (k : Kind)
  | inhibited
  deriving DecidableEq, Repr

/-- The station states (00 section 2.3) and the hold of the RESET pin (R187). -/
inductive StationMode where
  | held | loading | run | listen
  deriving DecidableEq, Repr

/-- Why the station is in LISTEN (R183, R177). -/
inductive ListenReason where
  | noMemory | badSignature | badImageCrc | badStation
  deriving DecidableEq, Repr

/-- How far a RESTART request has come: not asked, answered OK, its reply ended (R174). -/
inductive RestartState where
  | none | answered | replyEnded
  deriving DecidableEq, Repr

/-! ## Time -/

/-- An instant of the timebase (R185): whole seconds of station time and the fraction in units of 1/96000 s, in which a
millisecond (96), a 16 Hz interval (6000) and a bit period of every serial line are whole. -/
structure Instant where
  sec : Time := 0
  sub : Nat := 0
  deriving DecidableEq, Repr

/-! ## Stamps, acknowledgements, entries (R84) -/

/-- A stamp: start count and change number. -/
structure Stamp where
  start : Half
  change : Half
  deriving DecidableEq, Repr

/-- An ack part: acking station and operator code. -/
structure Ack where
  station : Nat
  operator : Byte
  deriving DecidableEq, Repr

/-- The state of an entry (Table 6.1). -/
inductive EntryState where
  | active | cleared | inhibited | retired
  deriving DecidableEq, Repr

/-- A Fault View entry (R84, Table 6.1). Its UNSENT flag is the point's mark, held once (R20): `QueueSide.unsent`. -/
structure Entry where
  origin : Nat
  point : Nat
  kind : Kind
  severity : Nat
  state : EntryState
  stamp : Option Stamp
  occurrences : Nat
  ageBase : Nat
  baseTime : Time
  lastHeard : Time
  ack : Option Ack := none
  affected : Option Nat := none
  own : Bool := false
  localOnly : Bool := false
  stale : Bool := false
  endedByRestart : Bool := false
  retireTime : Option Time := none
  lastSent : Option Time := none
  deriving DecidableEq, Repr

/-! ## Items of the county channel and queue records (R123, R124) -/

/-- The state an item carries (Table 9.3). -/
inductive ItemState where
  | active | cleared | inhibited
  deriving DecidableEq, Repr

/-- A FAULT item. `age` is the age as it stood at station time `asOf`: the time of queueing for a queued item (R124), the
time of reception for a heard one. -/
structure FaultNews where
  origin : Nat
  point : Nat
  stamp : Stamp
  kind : Kind
  severity : Nat
  state : ItemState
  occurrences : Nat
  age : Nat
  asOf : Time
  hop : Nat
  ack : Option Ack := none
  affected : Option Nat := none
  deriving DecidableEq, Repr

/-- An ACK item. -/
structure AckNews where
  origin : Nat
  point : Nat
  stamp : Stamp
  ack : Ack
  hop : Nat
  deriving DecidableEq, Repr

/-- One point of a COMPACT item, with its own age and enqueue time. -/
structure CompactPoint where
  point : Nat
  change : Half
  age : Nat
  asOf : Time
  deriving DecidableEq, Repr

/-- A COMPACT item. -/
structure CompactNews where
  origin : Nat
  start : Half
  kind : Kind
  severity : Nat
  state : ItemState
  hop : Nat
  points : List CompactPoint
  deriving DecidableEq, Repr

/-- An ALIVE item. -/
structure AliveNews where
  origin : Nat
  start : Half
  hop : Nat
  deriving DecidableEq, Repr

/-- An item of one of the four types (Table 8.1). -/
inductive Item where
  | fault (f : FaultNews)
  | ack (a : AckNews)
  | compact (c : CompactNews)
  | alive (a : AliveNews)
  deriving DecidableEq, Repr

/-- Why an item was queued (Table 8.2). -/
inductive Purpose where
  | own | relay | correction | refresh | resync
  deriving DecidableEq, Repr

/-- A queue record (R124, Table 8.2). `seq` is the order in which the queue took it: among items of one severity the list
order of the queue agrees with it but for a FAULT split out of a COMPACT (R125). -/
structure QItem where
  item : Item
  severity : Nat
  purpose : Purpose
  heard : Nat := 0
  seq : Nat := 0
  deriving DecidableEq, Repr

/-! ## The statistics counters (R179) -/

/-- The sixteen counters, in the order of Table 11.7. -/
inductive CounterId where
  | heardGood | badCheck | badFormat | truncated | duplicateStation | bulletinsSent | itemsQueued
  | droppedFull | droppedCondensed | relaysSuppressed | viewEvictions | viewRefusals | staleHeard
  | signTimeouts | signGarbled | consoleDiscards
  deriving DecidableEq, Repr

/-- A counter with its rollover flag. -/
structure Counter where
  value : Half := 0
  rolled : Bool := false
  deriving DecidableEq, Repr

/-! ## Local records -/

/-- A filter record (R5, Table 1.4) but for the unsent mark, which stands in `QueueSide.unsent`. -/
structure FilterRecord where
  declared : Declared := .unused
  p : Nat := 0
  l : Option Kind := none
  r : Nat := 0
  occurrences : Nat := 0
  deriving DecidableEq, Repr

/-- A LAMP channel's working record (Table 2.1, with the latest ratio of R35). -/
structure LampRecord where
  latestCurrent : Option Nat := none
  demand : Bool := false
  tw : Option Time := none
  tc : Option Time := none
  reference : Nat := 0
  learnCount : Nat := 0
  learnSum : Nat := 0
  learnFailed : Bool := false
  latestRatio : Option Nat := none
  latestClass : Option SampleClass := none
  deriving DecidableEq, Repr

/-- What capture gives a loop record: the baseline in 1/64 count and the capture time (R42). -/
structure LoopCapture where
  baseline : Nat
  time : Time
  deriving DecidableEq, Repr

/-- A LOOP channel's working record (Table 3.2). Captured means `capture` is present, occupied means `occStart` is. -/
structure LoopRecord where
  capture : Option LoopCapture := none
  nominal : Nat := 0
  nominalCaptured : Bool := false
  occStart : Option Time := none
  lastOccEnd : Option Time := none
  latestCount : Option Nat := none
  latestDeviation : Option Int := none
  latestDrift : Option Nat := none
  latestClass : Option SampleClass := none
  deriving DecidableEq, Repr

/-- A sense channel's working record by kind. A channel that no kind works (in LOADING and LISTEN, and in RUN a channel
OFF) holds both records in the state that reset leaves them (R23, R38, R56). -/
inductive Channel where
  | off (lamp : LampRecord) (loop : LoopRecord)
  | lamp (r : LampRecord)
  | loop (r : LoopRecord)
  deriving DecidableEq, Repr

/-- The channel as reset leaves it and LISTEN keeps it: demand OFF, Tw, Tc and the latest values absent, no reference, no
learning; uncaptured, unoccupied, the loop's latest values absent (R38, R56). The working reference and the working nominal
count are those of the default settings, 0 (log 35). -/
def Channel.reset : Channel :=
  .off ⟨none, false, none, none, 0, 0, 0, false, none, none⟩ ⟨none, 0, false, none, none, none, none, none, none⟩

/-- A cabinet input's record (R76, R77); true is high. -/
structure InputRecord where
  latest : Bool := false
  previous : Bool := false
  filtered : Bool := false
  deriving DecidableEq, Repr

/-- The states of the Sign Line Controller (Table 4.5). -/
inductive SlcState where
  | stopped | waiting | sending | awaiting | guarding
  deriving DecidableEq, Repr

/-- A character of the sign line as received (R57). -/
structure SignChar where
  value : Byte
  marker : Bool
  framing : Bool
  deriving DecidableEq, Repr

/-- The SLC record (Table 4.4), with the instant from which GUARD runs (R68). -/
structure Slc where
  state : SlcState := .stopped
  origin : Option Instant := none
  owed : Bool := false
  current : Option Nat := none
  buffer : List SignChar := []
  timeoutStart : Option Instant := none
  guardStart : Option Instant := none
  deriving DecidableEq, Repr

/-- The reasons for GARBLED (Table 4.6). -/
inductive GarbleReason where
  | short | framing | marker | address | check
  deriving DecidableEq, Repr

/-- The outcome of a transaction (R67, R71). -/
inductive SignOutcome where
  | good
  | noReply
  | garbled (r : GarbleReason)
  | abandoned
  deriving DecidableEq, Repr

/-- A good reply as recorded (R61, R69). -/
structure GoodReply where
  powerFail : Bool
  selfTest : Bool
  doorOpen : Bool
  pixels : Nat
  message : Byte
  time : Time
  deriving DecidableEq, Repr

/-- What the SLC keeps of a sign (R67, R69, Table 4.8). -/
structure SignRecord where
  lastOutcome : Option (SignOutcome × Time) := none
  latestClass : Option SampleClass := none
  lastGood : Option GoodReply := none
  deriving DecidableEq, Repr

/-- A roll record (Table 7.1): known means `newest` is present. -/
structure RollRecord where
  newest : Option Half := none
  lastHeard : Time := 0
  heardDirect : Half := 0
  silent : Bool := false
  deriving DecidableEq, Repr

/-! ## Trunk Controller -/

/-- The enable state (R153). -/
inductive EnableState where
  | disabled | enabled | draining
  deriving DecidableEq, Repr

/-- The access state (Table 9.5). -/
inductive AccessState where
  | off | idle | defer | keyup | send
  deriving DecidableEq, Repr

/-- A frame in progress (R148): the length once it is known, and the characters after it. -/
structure RxFrame where
  length : Option Nat := none
  chars : List Byte := []
  deriving DecidableEq, Repr

/-- The Trunk Controller's own state. `rx` is absent while hunting; `slot` is absent unless a slot runs. -/
structure Trunk where
  enable : EnableState := .disabled
  access : AccessState := .off
  count : Nat := 0
  slot : Option Instant := none
  cd : Bool := false
  rx : Option RxFrame := none
  lfsr : Half := 0
  bulletin : Option (List Byte) := none
  since : Option Instant := none
  deriving DecidableEq, Repr

/-! ## Console Port -/

/-- The states of the port outside LOADING (R171). -/
inductive PortState where
  | hunting | assembling | replying
  deriving DecidableEq, Repr

/-- The status codes (Table 11.2). -/
inductive Status where
  | ok | badFormat | badCheck | unknownRequest | noEntry | staleStamp | notConfigured
  | notLocal | stackFull | stackEmpty | nonePending | wrongState | busy | memoryFault
  deriving DecidableEq, Repr

/-- A reply: code echo, status and data (Table 11.1). -/
structure Reply where
  code : Byte
  status : Status
  data : List Byte
  deriving DecidableEq, Repr

/-- The Console Port's own state. -/
structure Console where
  port : PortState := .hunting
  buffer : List Byte := []
  gapStart : Option Instant := none
  reply : Option Reply := none
  deriving DecidableEq, Repr

/-! ## Configuration Loader -/

/-- A configuration write: offset and bytes (R188). -/
structure ConfigWrite where
  offset : Nat
  bytes : List Byte
  deriving DecidableEq, Repr

/-- The one memory operation in progress (R183, R184, R188). -/
inductive MemOp where
  | imageRead
  | startWrite (count : Half)
  | configWrite (w : ConfigWrite)
  deriving DecidableEq, Repr

/-- What the loader puts on the two wires, the acknowledge bits apart: START, the device address byte (address and
direction, true for read), a byte of a memory address or of data, the reading of a number of bytes, STOP (R182). -/
inductive WireEvent where
  | start
  | device (address : Byte) (read : Bool)
  | send (b : Byte)
  | take (n : Nat)
  | stop
  deriving DecidableEq, Repr

/-- The two-wire master's work: the operation in progress, the one pending start record (R184), the configuration write
that waits for a start-record write (R188). -/
structure Loader where
  op : Option MemOp := none
  pendingStart : Option Half := none
  waitingConfig : Option ConfigWrite := none
  deriving DecidableEq, Repr

/-! ## The state, block on block -/

/-- The Bulletin Queue with what its events write: the unsent marks (R20, R131) and the statistics counters. -/
structure QueueSide where
  queue : List QItem := []
  nextSeq : Nat := 0
  condensed : Bool := false
  unsent : Vector Bool 32 := .replicate 32 false
  counters : Vector Counter 16 := .replicate 16 ⟨0, false⟩
  deriving DecidableEq, Repr

/-- The Fault View over the queue it hands its outcomes to. `view` stands in key order (R85). -/
structure ViewSide extends QueueSide where
  view : List Entry := []
  viewOverflow : Bool := false
  deriving DecidableEq, Repr

/-- The county side: view, queue, roll, own stamps and the loader that writes the start record. -/
structure County extends ViewSide where
  roll : Vector RollRecord 240 := .replicate 240 ⟨none, 0, 0, false⟩
  duplicateStation : Bool := false
  stampConflict : Bool := false
  ownStart : Half := 0
  /-- N: the change number the next own stamp takes (R12). -/
  nextChange : Half := 0
  /-- Bn: the first change number under the current own start count (R12). -/
  baseChange : Half := 0
  loader : Loader := ⟨none, none, none⟩
  deriving DecidableEq, Repr

/-- The whole machine. -/
structure State extends County where
  mode : StationMode := .loading
  listenReason : Option ListenReason := none
  number : Nat := 0
  cfg : Settings := Settings.listen
  clock : Instant := ⟨0, 0⟩
  mem : List Host.Cell := []
  startWriteFail : Bool := false
  restart : RestartState := .none
  filters : Vector FilterRecord 32 := .replicate 32 ⟨.unused, 0, none, 0, 0⟩
  channels : Vector Channel 16 := .replicate 16 Channel.reset
  inputs : Vector InputRecord 8 := .replicate 8 ⟨false, false, false⟩
  slc : Slc := ⟨.stopped, none, false, none, [], none, none⟩
  signs : Vector SignRecord 8 := .replicate 8 ⟨none, none, none⟩
  trunk : Trunk := ⟨.disabled, .off, 0, none, false, none, 0, none, none⟩
  level : Nat := 0
  stack : List Nat := []
  attention : Bool := false
  cp : Console := ⟨.hunting, [], none, none⟩
  /-- The model's own: how many free values have been drawn (log 6). -/
  free : Nat := 0
  /-- The commands that wait, first in, first out. -/
  pending : List Instr := []
  deriving DecidableEq, Repr

/-- The machine right after power-on reset, the RESET pin released: LOADING, with the image read in progress and every
block in its reset state (R183, R187). Values the spec does not give are those of log 3 and log 5. -/
def State.reset : State :=
  { loader := ⟨some .imageRead, none, none⟩ }

/-- What county operations read of the rest of the state: the mode, the station number, the settings, the time. -/
structure Ctx where
  mode : StationMode
  number : Nat
  cfg : Settings
  now : Time
  deriving DecidableEq, Repr

/-! ## How a step can stop -/

/-- No rule of the spec makes the part stop (INVENTORY.md, Faults): there is no fault, so a claim that no step faults
holds by the type. -/
inductive Fault where
  deriving DecidableEq, Repr

/-- Why a command has no meaning in the model. -/
inductive Refusal where
  /-- Raised by an arm of `exec` for a command whose meaning has not been written. Safe. No arm raises it now. -/
  | notModelled (mnemonic : String)
  deriving DecidableEq, Repr

end Sys2Proof.Machine
end

