-- ==== Sys2Proof/Machine/Ops.lean ====
section
/-! DEFINITION. The named operations every block uses: tables by number, station time, the order of stamps, bytes and
the CRC, the configuration memory, and the accessors and updates of the state. -/

namespace Sys2Proof.Machine

/-! ## Tables by number -/

/-- Entry `i` of a table, or `d` outside it. -/
def tget {α : Type} {n : Nat} (t : Vector α n) (i : Nat) (d : α) : α := t[i]?.getD d

/-- The table with entry `i` replaced; outside the table nothing changes. -/
def tset {α : Type} {n : Nat} (t : Vector α n) (i : Nat) (x : α) : Vector α n := t.setIfInBounds i x

/-! ## Station time (R185) -/

/-- Units of the timebase in a second: the fraction of `Instant` counts 1/96000 s (log 1). -/
def unitsPerSecond : Nat := 96000

/-- Units of the timebase in a millisecond. -/
def unitsPerMs : Nat := 96

/-- Seconds from `t` to `now`, as the difference modulo 2^32 (R185). -/
def since (now t : Time) : Nat := (now - t).toNat

/-- Where `t` lies from `now`: the difference modulo 2^32 read as a signed number; the smaller is the earlier (R185). -/
def offsetFrom (now t : Time) : Int := (t - now).toInt

/-- `t` is at or before `now` (R185, R101). -/
def reached (now t : Time) : Bool := decide (offsetFrom now t ≤ 0)

/-- `now` plus a whole number of minutes (retire hold, R100). -/
def plusMinutes (now : Time) (m : Nat) : Time := now + BitVec.ofNat 32 (60 * m)

/-- The instant one unit later; station time rises by 1 at each whole second and wraps (R185). -/
def Instant.tick (i : Instant) : Instant :=
  if i.sub + 1 < unitsPerSecond then ⟨i.sec, i.sub + 1⟩ else ⟨i.sec + 1, 0⟩

/-- Units from `a` to `b`, for `a` not later than `b` and less than 2^32 s before it. -/
def Instant.units (a b : Instant) : Int :=
  (since b.sec a.sec : Int) * unitsPerSecond + b.sub - a.sub

/-! ## Serial order (R88) -/

/-- `a` is newer than `b`: the difference modulo 65536 lies in 1..32767. -/
def countNewer (a b : Half) : Bool := decide (1 ≤ (a - b).toNat ∧ (a - b).toNat ≤ 32767)

/-- `a` is newer than `b`, or the two differ by exactly 32768 and `a` is the one taken as newer (R88, R112, R128). -/
def countTakenNewer (a b : Half) : Bool := decide (1 ≤ (a - b).toNat ∧ (a - b).toNat ≤ 32768)

/-- Stamp `a` is newer than stamp `b` (R88). -/
def Stamp.newer (a b : Stamp) : Bool :=
  if a.start = b.start then countNewer a.change b.change else countNewer a.start b.start

/-- Stamp `a` is taken as newer than `b` when `a` is the item's or the offer's (R88, R128). -/
def Stamp.takenNewer (a b : Stamp) : Bool :=
  if a.start = b.start then countTakenNewer a.change b.change else countTakenNewer a.start b.start

/-! ## Bytes: low byte first (00 section 4, R175, R182) -/

/-- A number as one byte. -/
def byteOf (n : Nat) : Byte := BitVec.ofNat 8 n

/-- A flag as one byte. -/
def flagByte (b : Bool) : Byte := if b then 1 else 0

/-- A 16-bit quantity, low byte first. -/
def halfBytes (h : Half) : List Byte := [h.setWidth 8, (h >>> 8).setWidth 8]

/-- A number as a 16-bit quantity, low byte first. -/
def natHalfBytes (n : Nat) : List Byte := halfBytes (BitVec.ofNat 16 n)

/-- A 32-bit quantity, low byte first. -/
def timeBytes (t : Time) : List Byte :=
  [t.setWidth 8, (t >>> 8).setWidth 8, (t >>> 16).setWidth 8, (t >>> 24).setWidth 8]

/-- Two bytes, the low one first, as a 16-bit quantity. -/
def halfOf (lo hi : Byte) : Half := hi.setWidth 16 <<< 8 ||| lo.setWidth 16

/-- The 8-bit sum of bytes. -/
def byteSum (bs : List Byte) : Byte := bs.foldl (· + ·) 0

/-! ## The CRC (R146) -/

/-- One bit into the register: exclusive-or with the lowest bit, shift down, and 8408h where the result was 1. -/
def crcBit (r : Half) (b : Bool) : Half :=
  if (r.getLsbD 0) ^^ b then (r >>> 1) ^^^ 0x8408#16 else r >>> 1

/-- One byte into the register, its bits least significant first. -/
def crcByte (r : Half) (b : Byte) : Half :=
  (List.range 8).foldl (fun r i => crcBit r (b.getLsbD i)) r

/-- The CRC of bytes in the order sent, from FFFFh. -/
def crc (bs : List Byte) : Half := bs.foldl crcByte 0xFFFF#16

/-! ## The configuration memory (R182) -/

/-- The configuration memory: cells in rising address order, none equal to what an unlisted address reads as. -/
abbrev Memory := List Host.Cell

/-- The memory holds addresses 0..511 (R182). -/
def memorySize : Nat := 512

/-- What an unlisted address reads as: FFh (DESIGN CHOICE, log 3). -/
def memoryBlank : Byte := 0xFF

/-- The byte at an address. -/
def Memory.read : Memory → Nat → Byte
  | [], _ => memoryBlank
  | (a, b) :: m, x => if x = a then b else Memory.read m x

/-- A cell put into its place, a cell of the same address removed; a blank byte is not listed. -/
def Memory.put : Memory → Nat → Byte → Memory
  | [], x, b => if b = memoryBlank then [] else [(x, b)]
  | (a, c) :: m, x, b =>
    if x < a then (if b = memoryBlank then (a, c) :: m else (x, b) :: (a, c) :: m)
    else if x = a then (if b = memoryBlank then m else (x, b) :: m)
    else (a, c) :: Memory.put m x b

/-- A byte written at an address of the memory; the memory has no cell outside 0..511. -/
def Memory.write (m : Memory) (x : Nat) (b : Byte) : Memory :=
  if x < memorySize then Memory.put m x b else m

/-- Bytes written at successive addresses. -/
def Memory.writeBytes : Memory → Nat → List Byte → Memory
  | m, _, [] => m
  | m, x, b :: bs => Memory.writeBytes (Memory.write m x b) (x + 1) bs

/-- The bytes at `n` successive addresses. -/
def Memory.readBytes (m : Memory) (x n : Nat) : List Byte := (List.range n).map fun i => Memory.read m (x + i)

/-- The canonical form: addresses strictly rising from `lo` and below 512, no blank byte listed. -/
def Memory.wfFrom (lo : Nat) : Memory → Bool
  | [] => true
  | (a, b) :: m => decide (lo ≤ a ∧ a < memorySize ∧ b ≠ memoryBlank) && Memory.wfFrom (a + 1) m

/-- The memory is in its canonical form. -/
def Memory.wf (m : Memory) : Bool := Memory.wfFrom 0 m

end Sys2Proof.Machine

namespace Sys2Proof

open Sys2Proof.Machine (tget plusMinutes)

/-! ## Settings by number -/

/-- A channel's settings; none outside 0..15. -/
def Settings.channel (c : Settings) (i : Nat) : ChannelCfg := tget c.channels i .off

/-- The record of the sign at an address 1..8; absent otherwise (R58). -/
def Settings.signAt (c : Settings) (a : Nat) : SignCfg :=
  if 1 ≤ a then tget c.signs (a - 1) ⟨false, 0⟩ else ⟨false, 0⟩

/-- An input's record; UNUSED outside 0..7. -/
def Settings.inputAt (c : Settings) (i : Nat) : InputCfg := tget c.inputs i ⟨.unused, false, false⟩

/-- The retire time of an entry retired at `now` (R100). -/
def Settings.retireAt (c : Settings) (now : Time) : Time := plusMinutes now c.retireHold

end Sys2Proof

namespace Sys2Proof.Machine

/-! ## The state's accessors and updates -/

/-- What county operations read of the state. -/
def State.ctx (s : State) : Ctx := ⟨s.mode, s.number, s.cfg, s.clock.sec⟩

/-- Station time now. -/
def State.now (s : State) : Time := s.clock.sec

/-- The blocks work: the station is in RUN or LISTEN. -/
def State.live (s : State) : Bool := decide (s.mode = .run ∨ s.mode = .listen)

/-- The state with another county side. -/
def State.setCounty (s : State) (k : County) : State := { s with toCounty := k }

/-- A point's filter record; UNUSED outside 0..31 (R1). -/
def State.filter (s : State) (p : Nat) : FilterRecord := tget s.filters p ⟨.unused, 0, none, 0, 0⟩

/-- A point's filter record replaced. -/
def State.setFilter (s : State) (p : Nat) (f : FilterRecord) : State := { s with filters := tset s.filters p f }

/-- A channel's working record. -/
def State.channel (s : State) (c : Nat) : Channel := tget s.channels c Channel.reset

/-- A channel's working record replaced. -/
def State.setChannel (s : State) (c : Nat) (r : Channel) : State := { s with channels := tset s.channels c r }

/-- An input's record. -/
def State.input (s : State) (i : Nat) : InputRecord := tget s.inputs i ⟨false, false, false⟩

/-- An input is active while its filtered level equals its active level (R77). -/
def State.inputActive (s : State) (i : Nat) : Bool := (s.input i).filtered == (s.cfg.inputAt i).activeHigh

/-- The record kept of the sign at an address 1..8. -/
def State.signRecord (s : State) (a : Nat) : SignRecord := tget s.signs (a - 1) ⟨none, none, none⟩

/-- That record replaced; addresses outside 1..8 name no sign. -/
def State.setSignRecord (s : State) (a : Nat) (r : SignRecord) : State :=
  if 1 ≤ a then { s with signs := tset s.signs (a - 1) r } else s

/-- The point of a sign address (R1). -/
def signPoint (a : Nat) : Nat := 16 + a - 1

/-- The point of an input (R1). -/
def inputPoint (i : Nat) : Nat := 24 + i

/-- A roll record; stations outside 1..240 have none and read as unknown. -/
def rollGet (roll : Vector RollRecord 240) (o : Nat) : RollRecord :=
  if 1 ≤ o then tget roll (o - 1) ⟨none, 0, 0, false⟩ else ⟨none, 0, 0, false⟩

/-- A roll record replaced. -/
def rollSet (roll : Vector RollRecord 240) (o : Nat) (r : RollRecord) : Vector RollRecord 240 :=
  if 1 ≤ o then tset roll (o - 1) r else roll

end Sys2Proof.Machine
end

