-- ==== Sys2Proof/Machine/Operands.lean ====
section
/-! DEFINITION. The codes under which the manual's names cross the part's boundary (Tables 1.2, 5.1, 9.3, 11.2 to 11.6),
and the console requests as operands: their codes, parameters, ranges and frames (R172, R175). -/

namespace Sys2Proof.Machine

/-! ## Codes -/

/-- The code of a kind (Table 1.2). -/
def Kind.code : Kind → Nat
  | .lampOut => 1
  | .lampPartial => 2
  | .lampOvercurrent => 3
  | .dayBurning => 4
  | .loopOpen => 5
  | .loopShort => 6
  | .loopDrift => 7
  | .loopStuck => 8
  | .loopSilent => 9
  | .signComm => 10
  | .signPower => 11
  | .signReported => 12
  | .signPixelLoss => 13
  | .signDoor => 14
  | .mainsLost => 15
  | .doorOpen => 16
  | .inputActive => 17
  | .stationSilent => 18

/-- The kind of a code 1..18. -/
def Kind.ofCode : Nat → Option Kind
  | 1 => some .lampOut
  | 2 => some .lampPartial
  | 3 => some .lampOvercurrent
  | 4 => some .dayBurning
  | 5 => some .loopOpen
  | 6 => some .loopShort
  | 7 => some .loopDrift
  | 8 => some .loopStuck
  | 9 => some .loopSilent
  | 10 => some .signComm
  | 11 => some .signPower
  | 12 => some .signReported
  | 13 => some .signPixelLoss
  | 14 => some .signDoor
  | 15 => some .mainsLost
  | 16 => some .doorOpen
  | 17 => some .inputActive
  | 18 => some .stationSilent
  | _ => none

/-- The state code of an item (Table 9.3). -/
def ItemState.code : ItemState → Nat
  | .active => 1
  | .cleared => 2
  | .inhibited => 3

/-- The item state of a code; 0 is malformed (R151). -/
def ItemState.ofCode : Nat → Option ItemState
  | 1 => some .active
  | 2 => some .cleared
  | 3 => some .inhibited
  | _ => none

/-- The state of an entry as an item carries it: RETIRED is sent as CLEARED (R19, R137). -/
def EntryState.toItem : EntryState → ItemState
  | .active => .active
  | .cleared => .cleared
  | .inhibited => .inhibited
  | .retired => .cleared

/-- The state code of an entry (Table 11.4). -/
def EntryState.code : EntryState → Nat
  | .active => 1
  | .cleared => 2
  | .inhibited => 3
  | .retired => 4

/-- Status codes (Table 11.2). -/
def Status.code : Status → Byte
  | .ok => 0x00
  | .badFormat => 0x01
  | .badCheck => 0x02
  | .unknownRequest => 0x03
  | .noEntry => 0x04
  | .staleStamp => 0x05
  | .notConfigured => 0x06
  | .notLocal => 0x07
  | .stackFull => 0x08
  | .stackEmpty => 0x09
  | .nonePending => 0x0A
  | .wrongState => 0x0B
  | .busy => 0x0C
  | .memoryFault => 0x0D

/-- Station state code of STATUS: 1 RUN, 2 LISTEN (Table 11.5). STATUS is served in no other state. -/
def StationMode.code : StationMode → Byte
  | .run => 1
  | .listen => 2
  | .held => 0
  | .loading => 0

/-- LISTEN reason code (Table 11.5). -/
def listenReasonCode : Option ListenReason → Byte
  | none => 0
  | some .noMemory => 1
  | some .badSignature => 2
  | some .badImageCrc => 3
  | some .badStation => 4

/-- Enable state code (R175). -/
def EnableState.code : EnableState → Byte
  | .disabled => 0
  | .enabled => 1
  | .draining => 2

/-- Access state code (R175). -/
def AccessState.code : AccessState → Byte
  | .off => 0
  | .idle => 1
  | .defer => 2
  | .keyup => 3
  | .send => 4

/-- SLC state code (R175). -/
def SlcState.code : SlcState → Byte
  | .stopped => 0
  | .waiting => 1
  | .sending => 2
  | .awaiting => 3
  | .guarding => 4

/-- The family code of READ POINT (Table 11.6). -/
def Family.code : Family → Byte
  | .lamp => 1
  | .loop => 2
  | .sign => 3
  | .input => 4

/-- The declared-state code of READ POINT (R178). -/
def Declared.code : Declared → Byte
  | .unused => 0
  | .normal => 1
  | .fault _ => 2
  | .inhibited => 3

/-- The declared kind, present only in FAULT (R5). -/
def Declared.kind : Declared → Option Kind
  | .fault k => some k
  | .unused => none
  | .normal => none
  | .inhibited => none

/-- An optional kind as a byte; absent is 0 (R178). -/
def kindByte : Option Kind → Byte
  | none => 0
  | some k => byteOf k.code

/-- A class byte: 0 NORMAL, 1..17 a kind, FEh NEUTRAL; an absent value is sent as zeros (R178). -/
def classByte : Option SampleClass → Byte
  | none => 0
  | some .normal => 0
  | some (.abnormal k) => byteOf k.code
  | some .neutral => 0xFE

/-- The role code (Table 5.1). -/
def roleCode : Role → Byte
  | .unused => 0
  | .demand => 1
  | .mains => 2
  | .door => 3
  | .general => 4

/-- The role of a code; any other code becomes UNUSED (R75). -/
def roleOfCode : Nat → Role
  | 1 => .demand
  | 2 => .mains
  | 3 => .door
  | 4 => .general
  | _ => .unused

/-- The last-outcome code of a sign (Table 11.6). -/
def SignOutcome.code : SignOutcome → Byte
  | .good => 1
  | .noReply => 2
  | .garbled _ => 3
  | .abandoned => 4

/-- The reason code of a sign outcome: 1..5 in the order of Table 4.6, 0 for none. -/
def SignOutcome.reasonCode : SignOutcome → Byte
  | .garbled .short => 1
  | .garbled .framing => 2
  | .garbled .marker => 3
  | .garbled .address => 4
  | .garbled .check => 5
  | .good => 0
  | .noReply => 0
  | .abandoned => 0

/-! ## Console requests (Table 11.3) -/

/-- A console request with its parameters as they stand on the line. -/
inductive Request where
  | status
  | readTop (n : Byte)
  | readNext (origin point : Byte)
  | readEntry (origin point : Byte)
  | acknowledge (origin point : Byte) (start change : Half) (operator : Byte)
  | take (operator : Byte)
  | finish
  | setLevel (n : Byte)
  | readPoint (p : Byte)
  | inhibit (p : Byte)
  | release (p : Byte)
  | readRoll (station : Byte)
  | readCounters (clear : Byte)
  | trunkEnable
  | trunkDisable
  | trunkFlush
  | signStop
  | signStart
  | writeConfig (offset : Half) (bytes : List Byte)
  | restart
  deriving DecidableEq, Repr

/-- The code of a request. -/
def Request.code : Request → Byte
  | .status => 0x01
  | .readTop _ => 0x02
  | .readNext _ _ => 0x03
  | .readEntry _ _ => 0x04
  | .acknowledge _ _ _ _ _ => 0x05
  | .take _ => 0x06
  | .finish => 0x07
  | .setLevel _ => 0x08
  | .readPoint _ => 0x09
  | .inhibit _ => 0x0A
  | .release _ => 0x0B
  | .readRoll _ => 0x0C
  | .readCounters _ => 0x0D
  | .trunkEnable => 0x0E
  | .trunkDisable => 0x0F
  | .trunkFlush => 0x10
  | .signStop => 0x11
  | .signStart => 0x12
  | .writeConfig _ _ => 0x13
  | .restart => 0x14

/-- The parameter bytes of a request: a key is origin then point, a stamp is start count then change number (R175). -/
def Request.params : Request → List Byte
  | .status => []
  | .readTop n => [n]
  | .readNext o p => [o, p]
  | .readEntry o p => [o, p]
  | .acknowledge o p s c op => [o, p] ++ halfBytes s ++ halfBytes c ++ [op]
  | .take op => [op]
  | .finish => []
  | .setLevel n => [n]
  | .readPoint p => [p]
  | .inhibit p => [p]
  | .release p => [p]
  | .readRoll st => [st]
  | .readCounters c => [c]
  | .trunkEnable => []
  | .trunkDisable => []
  | .trunkFlush => []
  | .signStop => []
  | .signStart => []
  | .writeConfig off bs => halfBytes off ++ bs
  | .restart => []

/-- A parameter outside the range Table 11.3 gives makes the request BAD_FORMAT (R173). -/
def Request.inRange : Request → Bool
  | .readTop n => decide (1 ≤ n.toNat ∧ n.toNat ≤ 4)
  | .readRoll st => decide (1 ≤ st.toNat ∧ st.toNat ≤ 240)
  | .writeConfig _ bs => decide (1 ≤ bs.length ∧ bs.length ≤ 16)
  | .status => true
  | .readNext _ _ => true
  | .readEntry _ _ => true
  | .acknowledge _ _ _ _ _ => true
  | .take _ => true
  | .finish => true
  | .setLevel _ => true
  | .readPoint _ => true
  | .inhibit _ => true
  | .release _ => true
  | .readCounters _ => true
  | .trunkEnable => true
  | .trunkDisable => true
  | .trunkFlush => true
  | .signStop => true
  | .signStart => true
  | .restart => true

/-- The check byte that makes the 8-bit sum of the bytes and itself 0 (Table 11.1). -/
def checkOf (bs : List Byte) : Byte := 0 - byteSum bs

/-- The bytes of a request after its A5h: length, code, parameters, check. -/
def Request.body (r : Request) : List Byte :=
  let front := byteOf (1 + r.params.length) :: r.code :: r.params
  front ++ [checkOf front]

/-- The frame of a request on the line (Table 11.1). -/
def Request.frame (r : Request) : List Byte := 0xA5 :: r.body

/-- A request without parameters takes N = 1 (R175). -/
def noParameter (r : Request) (ps : List Byte) : Except Status Request :=
  match ps with
  | [] => .ok r
  | _ :: _ => .error .badFormat

/-- A request of one parameter byte, with the range Table 11.3 gives it. -/
def oneParameter (f : Byte → Request) (ps : List Byte) : Except Status Request :=
  match ps with
  | [a] => if (f a).inRange then .ok (f a) else .error .badFormat
  | [] => .error .badFormat
  | _ :: _ :: _ => .error .badFormat

/-- A request whose parameter is a key. -/
def keyParameter (f : Byte → Byte → Request) (ps : List Byte) : Except Status Request :=
  match ps with
  | [o, p] => .ok (f o p)
  | [] => .error .badFormat
  | [_] => .error .badFormat
  | _ :: _ :: _ :: _ => .error .badFormat

/-- The parameters of ACKNOWLEDGE: key, stamp, operator. -/
def acknowledgeParameters (ps : List Byte) : Except Status Request :=
  match ps with
  | [o, p, s0, s1, c0, c1, op] => .ok (.acknowledge o p (halfOf s0 s1) (halfOf c0 c1) op)
  | _ => .error .badFormat

/-- The parameters of WRITE CONFIG: offset, then 1..16 bytes. -/
def writeParameters (ps : List Byte) : Except Status Request :=
  match ps with
  | o0 :: o1 :: bs =>
    if (Request.writeConfig (halfOf o0 o1) bs).inRange then .ok (.writeConfig (halfOf o0 o1) bs) else .error .badFormat
  | _ => .error .badFormat

/-- What a code and its parameter bytes spell (R173, steps 2 and 3): the request, or the status it is turned away with. -/
def Request.parse (code : Byte) (ps : List Byte) : Except Status Request :=
  if code = 0x01 then noParameter .status ps
  else if code = 0x02 then oneParameter .readTop ps
  else if code = 0x03 then keyParameter .readNext ps
  else if code = 0x04 then keyParameter .readEntry ps
  else if code = 0x05 then acknowledgeParameters ps
  else if code = 0x06 then oneParameter .take ps
  else if code = 0x07 then noParameter .finish ps
  else if code = 0x08 then oneParameter .setLevel ps
  else if code = 0x09 then oneParameter .readPoint ps
  else if code = 0x0A then oneParameter .inhibit ps
  else if code = 0x0B then oneParameter .release ps
  else if code = 0x0C then oneParameter .readRoll ps
  else if code = 0x0D then oneParameter .readCounters ps
  else if code = 0x0E then noParameter .trunkEnable ps
  else if code = 0x0F then noParameter .trunkDisable ps
  else if code = 0x10 then noParameter .trunkFlush ps
  else if code = 0x11 then noParameter .signStop ps
  else if code = 0x12 then noParameter .signStart ps
  else if code = 0x13 then writeParameters ps
  else if code = 0x14 then noParameter .restart ps
  else .error .unknownRequest

end Sys2Proof.Machine
end

