-- ==== Sys2Proof/Machine/Image.lean ====
section
/-! DEFINITION. The configuration image: its fields (R182, Table 12.1), the clamping of each setting by its owner
chapter, the checks of a read image (R183) and the start record (R184). -/

namespace Sys2Proof.Machine

/-! ## Fields -/

/-- A one-byte field. -/
def Memory.byteAt (m : Memory) (x : Nat) : Nat := (Memory.read m x).toNat

/-- A two-byte field, low byte first. -/
def Memory.half (m : Memory) (x : Nat) : Half := halfOf (Memory.read m x) (Memory.read m (x + 1))

/-- A two-byte field as a number. -/
def Memory.halfAt (m : Memory) (x : Nat) : Nat := (Memory.half m x).toNat

/-! ## Clamping -/

/-- A value below a range takes its low end, one above it its high end. -/
def clamp (lo hi x : Nat) : Nat := max lo (min hi x)

/-- A code outside 0..`top` takes the default (R40, R58, R144). -/
def clampCode (top dflt x : Nat) : Nat := if x ≤ top then x else dflt

/-- A limit that must lie below another becomes one less than it (R6, R24, R141). -/
def below (limit x : Nat) : Nat := if limit ≤ x then limit - 1 else x

/-- A setting whose 0 means off; any other value is clamped (R119, R141). -/
def clampUnlessOff (lo hi x : Nat) : Nat := if x = 0 then 0 else clamp lo hi x

/-- One family's parameter set from an offset, in the order of Table 1.5 (R6). -/
def paramsAt (m : Memory) (x : Nat) : FamilyParams :=
  let on := clamp 1 63 (m.byteAt (x + 2))
  { up := clamp 1 15 (m.byteAt x), down := clamp 1 15 (m.byteAt (x + 1)), on := on,
    off := below on (m.byteAt (x + 3)), confirm := clamp 1 15 (m.byteAt (x + 4)) }

/-- The record of an input (R75, Table 5.1). -/
def inputCfgAt (m : Memory) (i : Nat) : InputCfg where
  role := roleOfCode (m.byteAt (342 + 3 * i))
  activeHigh := m.byteAt (343 + 3 * i) != 0
  filter := m.byteAt (344 + 3 * i) != 0

/-- An input field of a LAMP channel resolved: 0..7 with an input of the wanted role, or none (R25). -/
def inputOfRole (m : Memory) (role : Role) (field : Nat) : Option Nat :=
  if field ≤ 7 ∧ (inputCfgAt m field).role = role then some field else none

/-- The settings of a LAMP channel whose record begins at an offset, in the order of Table 2.2 (R24, R25). -/
def lampCfgAt (m : Memory) (x : Nat) : LampCfg :=
  let normalLow := clamp 151 1000 (m.halfAt (x + 7))
  { reference := min 2046 (m.halfAt (x + 1)), warmUp := min 600 (m.halfAt (x + 3)),
    overLimit := clamp 1001 4000 (m.halfAt (x + 5)), normalLow := normalLow,
    outLimit := below normalLow (max 1 (m.halfAt (x + 9))), dayThreshold := clamp 1 2046 (m.halfAt (x + 11)),
    demand := inputOfRole m .demand (m.byteAt (x + 13)), supply := inputOfRole m .mains (m.byteAt (x + 14)) }

/-- The settings of a LOOP channel whose record begins at an offset, in the order of Table 3.1 (R40). -/
def loopCfgAt (m : Memory) (x : Nat) : LoopCfg :=
  let detect := clamp 1 1000 (m.halfAt (x + 5))
  { nominal := m.halfAt (x + 1), openFloor := max 1 (m.halfAt (x + 3)), detect := detect,
    shortLimit := clamp (detect + 1) 3200 (m.halfAt (x + 7)), driftLimit := clamp 10 500 (m.halfAt (x + 9)),
    maxPresence := max 1 (m.byteAt (x + 11)), maxSilence := min 72 (m.byteAt (x + 12)) }

/-- A channel's record: kind 1 is LAMP, 2 LOOP, any other code OFF (Table 12.1). -/
def channelCfgAt (m : Memory) (c : Nat) : ChannelCfg :=
  let x := 58 + 16 * c
  if m.byteAt x = 1 then .lamp (lampCfgAt m x) else if m.byteAt x = 2 then .loop (loopCfgAt m x) else .off

/-- A sign's record: any non-zero value means present (R58). -/
def signCfgAt (m : Memory) (a : Nat) : SignCfg where
  present := m.byteAt (318 + 3 * (a - 1)) != 0
  pixelLimit := m.halfAt (319 + 3 * (a - 1))

/-- The working copy: the settings of an image, each clamped (R183, Table 12.1). -/
def settingsOf (m : Memory) : Settings :=
  let condenseOn := clamp 1 32 (m.byteAt 15)
  { trunkRate := clampCode 3 2 (m.byteAt 4), slotTime := clamp 5 100 (m.byteAt 5), keyUpDelay := min 250 (m.byteAt 6)
    hopBudget := min 7 (m.byteAt 7), suppression := clamp 1 4 (m.byteAt 8)
    refresh := clampUnlessOff 5 120 (m.byteAt 9), presence := clamp 1 60 (m.byteAt 10)
    silence := clampUnlessOff 10 240 (m.byteAt 11), retireHold := clamp 10 240 (m.byteAt 12)
    holdoff := clamp 10 600 (m.halfAt 13)
    condenseOn := condenseOn, condenseOff := below condenseOn (m.byteAt 16), condenseFloor := clamp 1 7 (m.byteAt 17)
    startLevel := min 7 (m.byteAt 18), gateCode := clampCode 2 1 (m.byteAt 19)
    severity := Vector.ofFn fun k => clamp 1 7 (m.byteAt (20 + k.val))
    lamp := paramsAt m 38, loop := paramsAt m 43, sign := paramsAt m 48, input := paramsAt m 53
    channels := Vector.ofFn fun c => channelCfgAt m c.val
    signRate := clampCode 4 3 (m.byteAt 314), pollInterval := clamp 2 60 (m.byteAt 315)
    replyTimeout := clamp 50 1000 (m.halfAt 316)
    signs := Vector.ofFn fun a => signCfgAt m (a.val + 1)
    inputs := Vector.ofFn fun i => inputCfgAt m i.val }

/-! ## The checks (R183) and the start record (R184) -/

/-- The image CRC of bytes 0..501 (R182). -/
def imageCrc (m : Memory) : Half := crc (m.readBytes 0 502)

/-- The first check of a read image that fails, in the order of R183; none when all pass. -/
def imageFailure (m : Memory) : Option ListenReason :=
  if m.readBytes 0 3 ≠ [0x4D, 0x46, 0x01] then some .badSignature
  else if imageCrc m ≠ m.half 502 then some .badImageCrc
  else if 1 ≤ m.byteAt 3 ∧ m.byteAt 3 ≤ 240 then none
  else some .badStation

/-- The stored start count: taken as 0 unless the complement field is its complement (R184). -/
def storedStart (m : Memory) : Half := if m.half 506 = ~~~m.half 504 then m.half 504 else 0

/-- The start record with a count: the count, then its bitwise complement (R182). -/
def startRecord (count : Half) : List Byte := halfBytes count ++ halfBytes (~~~count)

/-! ## The two wires (R182 to R184, R188) -/

/-- The device address of the memory. -/
def deviceAddress : Byte := 0x50

/-- The opening of a transfer: START, the device address with write, the memory address high byte first. -/
def wireOpening (x : Nat) : List WireEvent :=
  [.start, .device deviceAddress false, .send (byteOf (x / 256)), .send (byteOf (x % 256))]

/-- A page write: its opening, its data bytes, STOP. -/
def wireWrite (x : Nat) (bs : List Byte) : List WireEvent := wireOpening x ++ bs.map .send ++ [.stop]

/-- One try of the poll for completion: the device address with write (R184). No STOP closes a try, whether it is acknowledged or
not, since R184 gives the sending of the device address alone (the model's choice, log 36). -/
def wirePoll : List WireEvent := [.start, .device deviceAddress false]

/-- What the loader sends for a memory operation while the memory acknowledges each byte: the read of the whole image in
one transfer with a repeated START, or a page write. -/
def MemOp.wires : MemOp → List WireEvent
  | .imageRead => wireOpening 0 ++ [.start, .device deviceAddress true, .take memorySize, .stop]
  | .startWrite count => wireWrite 504 (startRecord count)
  | .configWrite w => wireWrite w.offset w.bytes

end Sys2Proof.Machine
end

