-- ==== Sys2Proof/Machine/Lamp.lean ====
section
/-! DEFINITION. A LAMP channel's record: windows, demand edges, reference learning, classification and phase
(chapter 2). -/

namespace Sys2Proof.Machine

/-- A current as the converter delivers it: at or above full scale 2047 (R23). -/
def measuredCurrent (i : Nat) : Nat := min 2047 i

/-- The channel is within its warm-up window at a time (R27). -/
def LampRecord.warming (r : LampRecord) (cfg : LampCfg) (now : Time) : Bool :=
  r.demand &&
    match r.tw with
    | none => false
    | some t => decide (since now t < cfg.warmUp)

/-- The channel is within its cool-down window of 10 s at a time (R28). -/
def LampRecord.cooling (r : LampRecord) (now : Time) : Bool :=
  !r.demand &&
    match r.tc with
    | none => false
    | some t => decide (since now t < 10)

/-- A demand edge, to ON or to OFF, at a time (R26). -/
def LampRecord.edge (r : LampRecord) (on : Bool) (now : Time) : LampRecord :=
  let r := if r.reference = 0 then
      { r with learnCount := 0, learnSum := 0, learnFailed := if on then false else r.learnFailed }
    else r
  if on then { r with demand := true, tw := some now, tc := none }
  else { r with demand := false, tc := some now, tw := none }

/-- A warm-up restart: with demand ON the window runs anew (R29, R30). -/
def LampRecord.warmRestart (r : LampRecord) (now : Time) : LampRecord :=
  if r.demand then { r with tw := some now } else r

/-- A current collected towards a reference, completing learning at the sixteenth (R31, R32). -/
def LampRecord.collect (r : LampRecord) (i : Nat) : LampRecord :=
  let sum := r.learnSum + i
  if r.learnCount + 1 = 16 then
    if 5 ≤ sum / 16 then { r with learnCount := 16, learnSum := sum, reference := sum / 16 }
    else { r with learnCount := 0, learnSum := 0, learnFailed := true }
  else { r with learnCount := r.learnCount + 1, learnSum := sum }

/-- The ratio of a current to a reference in thousandths, at most 4000 (R35). -/
def lampRatio (i reference : Nat) : Nat := min 4000 (i * 1000 / reference)

/-- The class of a ratio (Table 2.4). -/
def ratioClass (cfg : LampCfg) (q : Nat) : SampleClass :=
  if cfg.overLimit ≤ q then .abnormal .lampOvercurrent
  else if cfg.normalLow ≤ q then .normal
  else if cfg.outLimit ≤ q then .abnormal .lampPartial
  else .abnormal .lampOut

/-- A sense tick with a measured current: the first row of Table 2.3 that holds gives the class (R34). The record takes
the latest current, ratio and class. -/
def LampRecord.tick (r : LampRecord) (cfg : LampCfg) (supplyLost : Bool) (i : Nat) (now : Time) :
    LampRecord × SampleClass :=
  let done (r : LampRecord) (cls : SampleClass) (q : Option Nat) : LampRecord × SampleClass :=
    ({ r with latestCurrent := some i, latestClass := some cls, latestRatio := q }, cls)
  if supplyLost then done r .neutral none
  else if r.demand then
    if r.warming cfg now then done r .neutral none
    else if i = 2047 then done r (.abnormal .lampOvercurrent) none
    else if r.reference = 0 then
      if r.learnFailed then done r (.abnormal .lampOut) none else done (r.collect i) .neutral none
    else done r (ratioClass cfg (lampRatio i r.reference)) (some (lampRatio i r.reference))
  else if r.cooling now then done r .neutral none
  else if cfg.dayThreshold ≤ i then done r (.abnormal .dayBurning) none
  else done r .normal none

/-- The record at entry to RUN (R38): `demand` is ON for want of a source, or the input's level after instant 0. -/
def lampAtStart (cfg : LampCfg) (demand : Bool) : LampRecord :=
  { demand := demand, tw := if demand then some 0 else none, reference := cfg.reference }

/-- The phase code of READ POINT: the first row of Table 2.6 that holds (R37, Table 11.6). -/
def LampRecord.phase (r : LampRecord) (cfg : LampCfg) (supplyLost : Bool) (now : Time) : Byte :=
  if supplyLost then 1
  else if r.warming cfg now then 2
  else if r.demand then
    if r.reference = 0 then (if r.learnFailed then 4 else 3) else 5
  else if r.cooling now then 6
  else 7

/-- The live values of the lamp family (Table 11.6). The source is learned when a working reference stands that the image
did not configure (log 20). -/
def LampRecord.block (r : LampRecord) (cfg : LampCfg) (supplyLost : Bool) (now : Time) : List Byte :=
  let presence := (if r.latestCurrent.isSome then 1#8 else 0) ||| (if r.latestRatio.isSome then 2#8 else 0) |||
    (if r.latestClass.isSome then 4#8 else 0)
  [presence] ++ natHalfBytes (r.latestCurrent.getD 0) ++
    [flagByte r.demand ||| (if cfg.demand.isSome then 2#8 else 0), r.phase cfg supplyLost now] ++
    natHalfBytes r.reference ++ [flagByte (cfg.reference == 0 && r.reference != 0), byteOf r.learnCount] ++
    natHalfBytes r.learnSum ++ [flagByte r.learnFailed] ++ natHalfBytes (r.latestRatio.getD 0) ++
    [classByte r.latestClass,
      match cfg.supply with
      | none => 0xFF
      | some i => byteOf (inputPoint i)]

end Sys2Proof.Machine
end

