-- ==== Sys2Proof/Machine/Flags.lean ====
section
/-! DEFINITION. The statistics counters with their rollover flags (R179), and the latched flags as STATUS shows them
(R177). -/

namespace Sys2Proof.Machine

/-- The place of a counter in Table 11.7, from 0. -/
def CounterId.index : CounterId → Nat
  | .heardGood => 0
  | .badCheck => 1
  | .badFormat => 2
  | .truncated => 3
  | .duplicateStation => 4
  | .bulletinsSent => 5
  | .itemsQueued => 6
  | .droppedFull => 7
  | .droppedCondensed => 8
  | .relaysSuppressed => 9
  | .viewEvictions => 10
  | .viewRefusals => 11
  | .staleHeard => 12
  | .signTimeouts => 13
  | .signGarbled => 14
  | .consoleDiscards => 15

/-- One increment: from 65535 to 0 it sets the rollover flag, which stays set (R179). -/
def Counter.bump (c : Counter) : Counter := ⟨c.value + 1, c.rolled || c.value == 0xFFFF⟩

/-- `n` increments. -/
def Counter.bumps (c : Counter) : Nat → Counter
  | 0 => c
  | n + 1 => Counter.bumps c.bump n

/-- A counter's place in the table. -/
def QueueSide.counter (q : QueueSide) (i : CounterId) : Counter := tget q.counters i.index ⟨0, false⟩

/-- `n` increments of one counter. -/
def QueueSide.count (q : QueueSide) (i : CounterId) (n : Nat := 1) : QueueSide :=
  { q with counters := tset q.counters i.index ((q.counter i).bumps n) }

/-- The same, seen from the view. -/
def ViewSide.count (v : ViewSide) (i : CounterId) (n : Nat := 1) : ViewSide :=
  { v with toQueueSide := v.toQueueSide.count i n }

/-- The same, seen from the county side. -/
def County.count (k : County) (i : CounterId) (n : Nat := 1) : County :=
  { k with toViewSide := k.toViewSide.count i n }

/-- The same, seen from the station. -/
def State.count (s : State) (i : CounterId) (n : Nat := 1) : State := s.setCounty (s.toCounty.count i n)

/-- Every counter at 0 with its rollover flag clear (R180, R181). -/
def countersZero : Vector Counter 16 := .replicate 16 ⟨0, false⟩

/-- The rollover flags as two bytes: bit k − 1 for counter k (Table 11.3). -/
def rolloverFlags (cs : Vector Counter 16) : Half :=
  (List.range 16).foldl (fun h i => if (tget cs i ⟨0, false⟩).rolled then h ||| (1#16 <<< i) else h) 0

/-- The latched flags byte of STATUS (Table 11.5). -/
def State.latchedFlags (s : State) : Byte :=
  (if s.viewOverflow then 1#8 else 0) ||| (if s.duplicateStation then 2#8 else 0) |||
    (if s.stampConflict then 4#8 else 0) ||| (if s.startWriteFail then 8#8 else 0)

end Sys2Proof.Machine
end

