-- ==== Sys2Proof/Machine/Entries.lean ====
section
/-! DEFINITION. Entries of the Fault View: key order, finding and placing an entry (R85), age (R86), the dispatch order
(R107) and the order of eviction (R105), and an entry as the item built from it. -/

namespace Sys2Proof.Machine

/-- Key order: origin, then point (R85). -/
def keyLt (o p o' p' : Nat) : Bool := decide (o < o' ∨ (o = o' ∧ p < p'))

/-- The entry has the key. -/
def Entry.hasKey (e : Entry) (o p : Nat) : Bool := decide (e.origin = o ∧ e.point = p)

/-- The entry for a key. -/
def findEntry (v : List Entry) (o p : Nat) : Option Entry := v.find? (·.hasKey o p)

/-- An entry put into its place in key order; one with the same key is replaced. -/
def putEntry : List Entry → Entry → List Entry
  | [], e => [e]
  | x :: xs, e =>
    if keyLt e.origin e.point x.origin x.point then e :: x :: xs
    else if e.origin = x.origin ∧ e.point = x.point then e :: xs
    else x :: putEntry xs e

/-- The entry for a key changed in place, if the view holds one. -/
def updateEntry (v : List Entry) (o p : Nat) (f : Entry → Entry) : List Entry :=
  v.map fun e => if e.hasKey o p then f e else e

/-- The entry for a key removed. -/
def removeEntry (v : List Entry) (o p : Nat) : List Entry := v.filter fun e => !e.hasKey o p

/-- The least key above a key, in key order (READ NEXT, R85). -/
def nextEntry (v : List Entry) (o p : Nat) : Option Entry := v.find? fun e => keyLt o p e.origin e.point

/-- The age of an entry: min(65535, age base + now − base time) (R86). -/
def Entry.age (e : Entry) (now : Time) : Nat := min 65535 (e.ageBase + since now e.baseTime)

/-- The dispatch group of an entry, none for RETIRED (R107, Table 6.9). -/
def Entry.group (e : Entry) : Option Nat :=
  match e.state with
  | .active => if e.ack.isNone then some 1 else some 3
  | .cleared => some 2
  | .inhibited => some 4
  | .retired => none

/-- The entry asserts the attention output at a level: unacknowledged, ACTIVE or CLEARED, above it (R164). -/
def Entry.calls (e : Entry) (level : Nat) : Bool :=
  (e.group == some 1 || e.group == some 2) && decide (level < e.severity)

/-- `a` stands before `b` in the dispatch order: group, severity descending, age descending, origin, point (R107). -/
def dispatchBefore (now : Time) (a b : Entry) : Bool :=
  let ga := a.group.getD 5
  let gb := b.group.getD 5
  if ga ≠ gb then decide (ga < gb)
  else if a.severity ≠ b.severity then decide (b.severity < a.severity)
  else if a.age now ≠ b.age now then decide (b.age now < a.age now)
  else keyLt a.origin a.point b.origin b.point

/-- Insertion into a list sorted by dispatch order. -/
def dispatchInsert (now : Time) (e : Entry) : List Entry → List Entry
  | [] => [e]
  | x :: xs => if dispatchBefore now e x then e :: x :: xs else x :: dispatchInsert now e xs

/-- The dispatch order of a view, RETIRED entries left out (R107). -/
def dispatchOrder (now : Time) (v : List Entry) : List Entry :=
  (v.filter fun e => e.group.isSome).foldr (dispatchInsert now) []

/-- The rank of a state in the second eviction tier (Table 6.8). -/
def EntryState.evictionRank : EntryState → Nat
  | .cleared => 0
  | .active => 1
  | .inhibited => 2
  | .retired => 3

/-- `a` is evicted before `b` in the first tier: the earliest retire time, then the highest origin, then the highest
point (R105; earlier as R185 gives). -/
def retiredBefore (now : Time) (a b : Entry) : Bool :=
  let ra := offsetFrom now (a.retireTime.getD now)
  let rb := offsetFrom now (b.retireTime.getD now)
  if ra ≠ rb then decide (ra < rb) else keyLt b.origin b.point a.origin a.point

/-- `a` is evicted before `b` in the second tier (Table 6.8). -/
def evictBefore (now : Time) (a b : Entry) : Bool :=
  if a.severity ≠ b.severity then decide (a.severity < b.severity)
  else if a.stale ≠ b.stale then a.stale
  else if a.state.evictionRank ≠ b.state.evictionRank then decide (a.state.evictionRank < b.state.evictionRank)
  else if a.age now ≠ b.age now then decide (a.age now < b.age now)
  else keyLt b.origin b.point a.origin a.point

/-- The first entry of a list by an order. -/
def firstBy (before : Entry → Entry → Bool) : List Entry → Option Entry
  | [] => none
  | e :: es =>
    match firstBy before es with
    | none => some e
    | some x => if before x e then some x else some e

/-- The entry evicted to make room (R104, R105): the first tier is the RETIRED candidates; the second is every candidate,
for a creation that is not own only those of a severity below `limit`. -/
def evictionChoice (now : Time) (v : List Entry) (limit : Option Nat) : Option Entry :=
  let candidates := v.filter fun e => !e.own
  match firstBy (retiredBefore now) (candidates.filter fun e => e.state == .retired) with
  | some e => some e
  | none =>
    firstBy (evictBefore now) (candidates.filter fun e =>
      match limit with
      | none => true
      | some s => decide (e.severity < s))

/-- The entry with an acknowledgement applied at its own stamp: CLEARED retires, the others keep their state (R99). -/
def Entry.acknowledged (e : Entry) (a : Ack) (retireAt : Time) : Entry :=
  match e.state with
  | .cleared => { e with ack := some a, state := .retired, retireTime := some retireAt }
  | .active => { e with ack := some a }
  | .inhibited => { e with ack := some a }
  | .retired => { e with ack := some a }

/-- The FAULT item built from an entry as it stands, with the initial hop budget (R19, R137, R138). -/
def Entry.item (e : Entry) (c : Ctx) : FaultNews where
  origin := e.origin
  point := e.point
  stamp := e.stamp.getD ⟨0, 0⟩
  kind := e.kind
  severity := e.severity
  state := e.state.toItem
  occurrences := e.occurrences
  age := e.age c.now
  asOf := c.now
  hop := c.cfg.hopBudget
  ack := e.ack
  affected := e.affected

end Sys2Proof.Machine
end

