-- ==== Sys2Proof/Machine/Queue.lean ====
section
/-! DEFINITION. The Bulletin Queue: items and charges, order, offers, replacement, eviction, condensed mode, the resync
pass, suppression and flush (chapter 8). Every operation works on `QueueSide`; what it reads of the rest of the station
is the context, the roll and the view. -/

namespace Sys2Proof.Machine

/-! ## Items and charges (R123) -/

/-- The limit of the total charge. -/
def chargeLimit : Nat := 2048

/-- The point of ALIVE items: the presence key (R1). -/
def presencePoint : Nat := 254

/-- The point of STATION_SILENT entries: the station key (R1). -/
def stationPoint : Nat := 255

/-- The bytes an item takes in a bulletin (Table 8.1). -/
def Item.size : Item → Nat
  | .fault f => 13 + (if f.ack.isSome then 2 else 0) + (if f.affected.isSome then 1 else 0)
  | .ack _ => 10
  | .compact c => 8 + 5 * c.points.length
  | .alive _ => 7

/-- The charge of an item: its size rounded up to a multiple of 4, plus 4 (R123). -/
def Item.charge (i : Item) : Nat := (i.size + 3) / 4 * 4 + 4

/-- The origin of an item. -/
def Item.origin : Item → Nat
  | .fault f => f.origin
  | .ack a => a.origin
  | .compact c => c.origin
  | .alive a => a.origin

/-- The start count of an item. -/
def Item.start : Item → Half
  | .fault f => f.stamp.start
  | .ack a => a.stamp.start
  | .compact c => c.start
  | .alive a => a.start

/-- The points of the keys an item covers (Table 8.2). -/
def Item.points : Item → List Nat
  | .fault f => [f.point]
  | .ack a => [a.point]
  | .compact c => c.points.map (·.point)
  | .alive _ => [presencePoint]

/-- The stamp an item has for one of its points; an ALIVE is compared by its start count alone (R123). -/
def Item.stampAt : Item → Nat → Option Stamp
  | .fault f, p => if f.point = p then some f.stamp else none
  | .ack a, p => if a.point = p then some a.stamp else none
  | .compact c, p => (c.points.find? (·.point == p)).map fun x => ⟨c.start, x.change⟩
  | .alive a, p => if p = presencePoint then some ⟨a.start, 0⟩ else none

/-- The hop budget of an item. -/
def Item.hop : Item → Nat
  | .fault f => f.hop
  | .ack a => a.hop
  | .compact c => c.hop
  | .alive a => a.hop

/-- The stamp a queued item has for a key, if it covers it. -/
def QItem.stampFor (x : QItem) (o p : Nat) : Option Stamp := if x.item.origin = o then x.item.stampAt p else none

/-- The queued item that covers a key. -/
def covering (q : List QItem) (o p : Nat) : Option QItem := q.find? fun x => (x.stampFor o p).isSome

/-- The total charge: the sum of the charges of the items held (R123). -/
def totalCharge : List QItem → Nat
  | [] => 0
  | x :: xs => x.item.charge + totalCharge xs

/-- An item joins as the newest of its severity, behind every item of that severity or a higher one (R125). -/
def enqueue : List QItem → QItem → List QItem
  | [], x => [x]
  | y :: ys, x => if x.severity ≤ y.severity then y :: enqueue ys x else x :: y :: ys

/-! ## COMPACT items -/

/-- The occurrences a COMPACT point has as a FAULT: those the view holds for the key, or where nothing is stored those
R98 gives a creation (R127, R128). -/
def compactOccurrences (view : List Entry) (o p : Nat) (st : ItemState) : Nat :=
  match findEntry view o p with
  | some e => e.occurrences
  | none =>
    match st with
    | .active => 1
    | .cleared => 0
    | .inhibited => 0

/-- A COMPACT point as a FAULT of its own, with at most an ack part (R128, R129). -/
def compactFault (view : List Entry) (c : CompactNews) (x : CompactPoint) (ack : Option Ack) : FaultNews where
  origin := c.origin
  point := x.point
  stamp := ⟨c.start, x.change⟩
  kind := c.kind
  severity := c.severity
  state := c.state
  occurrences := compactOccurrences view c.origin x.point c.state
  age := x.age
  asOf := x.asOf
  hop := c.hop
  ack := ack

/-- A COMPACT with its points as they now are: one left makes a FAULT without optional parts, none left makes nothing
(R128). -/
def compactOf (view : List Entry) (c : CompactNews) : Option Item :=
  match c.points with
  | [] => none
  | [x] => some (.fault (compactFault view c x none))
  | _ :: _ :: _ => some (.compact c)

/-- What is left of a queued item when a key is taken from it. -/
def withoutKey (view : List Entry) (p : Nat) (x : QItem) : Option QItem :=
  match x.item with
  | .compact c =>
    (compactOf view { c with points := c.points.filter (·.point != p) }).map (fun i => { x with item := i })
  | .fault _ => none
  | .ack _ => none
  | .alive _ => none

/-- The queue with a key taken from whatever item covers it (R128, replacement). -/
def replaceKey (view : List Entry) (o p : Nat) (q : List QItem) : List QItem :=
  q.filterMap fun x => if (x.stampFor o p).isSome then withoutKey view p x else some x

/-! ## The steps of an offer (R126) -/

/-- An offer of another origin whose start count is older than the newest the roll holds for it (R115). A difference of
exactly 32768 counts as older here, since the roll's count was taken as newer (log 17). -/
def olderThanRoll (c : Ctx) (roll : Vector RollRecord 240) (i : Item) : Bool :=
  i.origin != c.number &&
    match (rollGet roll i.origin).newest with
    | none => false
    | some n => countTakenNewer n i.start

/-- A key of an offer is not queued: the queued item for it is newer, or is of the same stamp against a REFRESH or
CORRECTION (R128). -/
def keyBlocked (q : List QItem) (purpose : Purpose) (o p : Nat) (st : Stamp) : Bool :=
  match (covering q o p).bind (·.stampFor o p) with
  | none => false
  | some held =>
    if held = st then purpose == .refresh || purpose == .correction else !st.takenNewer held

/-- The per-key check: what is left of the offer (R128). -/
def perKeyCheck (view : List Entry) (q : List QItem) (x : QItem) : Option QItem :=
  match x.item with
  | .compact c =>
    let free := c.points.filter (fun y => !(keyBlocked q x.purpose c.origin y.point ⟨c.start, y.change⟩))
    (compactOf view { c with points := free }).map (fun i => { x with item := i })
  | .fault f => if keyBlocked q x.purpose f.origin f.point f.stamp then none else some x
  | .ack a => if keyBlocked q x.purpose a.origin a.point a.stamp then none else some x
  | .alive a => if keyBlocked q x.purpose a.origin presencePoint ⟨a.start, 0⟩ then none else some x

/-- The refusals of condensed mode (R133). -/
def condensedRefuses (c : Ctx) (x : QItem) : Bool :=
  match x.purpose with
  | .refresh => true
  | .relay => decide (x.severity < c.cfg.condenseFloor)
  | .correction => decide (x.severity < c.cfg.condenseFloor)
  | .own => false
  | .resync => false

/-- The points of an own FAULT or COMPACT, own being taken by origin (R131). -/
def ownPoints (c : Ctx) (i : Item) : List Nat :=
  match i with
  | .fault f => if f.origin = c.number then [f.point] else []
  | .compact n => if n.origin = c.number then n.points.map (·.point) else []
  | .ack _ => []
  | .alive _ => []

/-- The unsent marks set for items that are lost (R131). -/
def markUnsent (c : Ctx) (lost : List QItem) (marks : Vector Bool 32) : Vector Bool 32 :=
  (lost.flatMap fun x => ownPoints c x.item).foldl (fun m p => tset m p true) marks

/-- Eviction from the back: `r` is the queue reversed, so the lowest severity comes first and within it the newest; items
below `sev` go until the total is within the limit (R130). The answer is what is kept, reversed, and what is evicted. -/
def evictBack (sev : Nat) : List QItem → Nat → List QItem × List QItem
  | [], _ => ([], [])
  | x :: xs, total =>
    if total ≤ chargeLimit then (x :: xs, [])
    else if x.severity < sev then
      let r := evictBack sev xs (total - x.item.charge)
      (r.1, x :: r.2)
    else (x :: xs, [])

/-- An offer placed: the queue side as it leaves it, and the lowest total charge the queue passed through on the way,
after the removals of R128 and R130 and before the offer's own charge joined (R132 tests after each change). -/
abbrev Placed := QueueSide × Nat

/-- A queue side reached without a fall of the total charge below where it stands. -/
def QueueSide.placed (q : QueueSide) : Placed := (q, totalCharge q.queue)

/-- Fitting in (R130): `wanted` is the queue with the offer in it. If evicting items of lower severity brings it within
the limit, it becomes the queue; otherwise nothing is evicted, the queue is `otherwise`, and the offer is dropped. The
lowest total on the way is what is kept less what the offer adds to `otherwise`. -/
def fitIn (c : Ctx) (x : QItem) (wanted otherwise : List QItem) (q : QueueSide) : Placed :=
  let r := evictBack x.severity wanted.reverse (totalCharge wanted)
  if totalCharge r.1 ≤ chargeLimit then
    (QueueSide.count
      (QueueSide.count { q with queue := r.1.reverse, unsent := markUnsent c r.2 q.unsent } .droppedFull r.2.length)
      .itemsQueued,
      totalCharge r.1 - (totalCharge wanted - totalCharge otherwise))
  else
    (QueueSide.count { q with queue := otherwise, unsent := markUnsent c [x] q.unsent } .droppedFull).placed

/-- An ack part of the offer's own stamp that a queued FAULT or ACK carries is taken by an offered FAULT without one
(R129). -/
def carryAck (q : List QItem) (f : FaultNews) : FaultNews :=
  match f.ack, covering q f.origin f.point with
  | some _, _ => f
  | none, none => f
  | none, some x =>
    match x.item with
    | .fault g => if g.stamp = f.stamp then { f with ack := g.ack } else f
    | .ack a => if a.stamp = f.stamp then { f with ack := some a.ack } else f
    | .compact _ => f
    | .alive _ => f

/-- The offer inserted by itself: replacement of every key it covers, then fitting in (R128, R130). A COMPACT offer that
meets an acknowledgement of a point's stamp (a queued ACK, or a FAULT with an ack part) removes it like any queued item of
that key: R129 names no COMPACT offer, and a COMPACT point carries no ack part (the model's choice, log 33). -/
def insertOffer (c : Ctx) (view : List Entry) (x : QItem) (q : QueueSide) : Placed :=
  let y := match x.item with
    | .fault f => { x with item := .fault (carryAck q.queue f) }
    | .ack _ => x
    | .compact _ => x
    | .alive _ => x
  let rest := x.item.points.foldl (fun l p => replaceKey view x.item.origin p l) q.queue
  fitIn c y (enqueue rest { y with seq := q.nextSeq }) rest { q with nextSeq := q.nextSeq + 1 }

/-- A COMPACT split for an acknowledgement: the point leaves it as a FAULT directly behind it (R125, R129). The FAULT
keeps the queue record of the COMPACT (log 16). -/
def splitForAck (view : List Entry) (a : AckNews) (q : List QItem) : List QItem :=
  q.flatMap fun x =>
    match x.item with
    | .compact c =>
      match c.points.find? (·.point == a.point) with
      | some y =>
        if c.origin = a.origin then
          (withoutKey view a.point x).toList ++ [{ x with item := .fault (compactFault view c y (some a.ack)) }]
        else [x]
      | none => [x]
    | .fault _ => [x]
    | .ack _ => [x]
    | .alive _ => [x]

/-- An acknowledgement merged into the queued FAULT of its key, in place (R129). -/
def mergeAck (a : AckNews) (q : List QItem) : List QItem :=
  q.map fun x =>
    match x.item with
    | .fault f => if f.origin = a.origin ∧ f.point = a.point then { x with item := .fault { f with ack := some a.ack } } else x
    | .ack _ => x
    | .compact _ => x
    | .alive _ => x

/-- An ACK offer (R129): merged into a FAULT of its stamp, splitting a COMPACT point of its stamp, or inserted. -/
def offerAck (c : Ctx) (view : List Entry) (x : QItem) (a : AckNews) (q : QueueSide) : Placed :=
  match covering q.queue a.origin a.point with
  | none => insertOffer c view x q
  | some y =>
    if y.stampFor a.origin a.point = some a.stamp then
      match y.item with
      | .fault f =>
        if f.ack.isSome then q.placed else (QueueSide.count { q with queue := mergeAck a q.queue } .itemsQueued).placed
      | .compact _ => fitIn c x (splitForAck view a q.queue) q.queue q
      | .ack _ => insertOffer c view x q
      | .alive _ => insertOffer c view x q
    else insertOffer c view x q

/-- A FAULT's content as a COMPACT point. -/
def FaultNews.asPoint (f : FaultNews) : CompactPoint := ⟨f.point, f.stamp.change, f.age, f.asOf⟩

/-- The item is a merge target for an own FAULT offer: an own COMPACT, or an own FAULT without optional parts, of the
same start count, kind, severity and state, with fewer than 8 keys and not the offer's (R134). -/
def mergeTarget (c : Ctx) (f : FaultNews) (x : QItem) : Bool :=
  match x.item with
  | .compact n =>
    n.origin == c.number && n.start == f.stamp.start && n.kind == f.kind && n.severity == f.severity &&
      n.state == f.state && decide (n.points.length < 8) && !(n.points.any (·.point == f.point))
  | .fault g =>
    g.origin == c.number && g.ack.isNone && g.affected.isNone && g.stamp.start == f.stamp.start && g.kind == f.kind &&
      g.severity == f.severity && g.state == f.state && g.point != f.point
  | .ack _ => false
  | .alive _ => false

/-- The target with the offer's point as its last: purpose OWN and the initial hop budget (R134). It keeps its place in the
order of insertion, so that a merge made by a resync pass during an assembly leaves it an item queued before the assembly
(R156; the model's choice, log 34). -/
def mergeInto (c : Ctx) (f : FaultNews) (x : QItem) : QItem :=
  match x.item with
  | .compact n =>
    { x with item := .compact { n with hop := c.cfg.hopBudget, points := n.points ++ [f.asPoint] },
             purpose := .own, heard := 0 }
  | .fault g =>
    { x with item := .compact ⟨g.origin, g.stamp.start, g.kind, g.severity, g.state, c.cfg.hopBudget, [g.asPoint, f.asPoint]⟩,
             purpose := .own, heard := 0 }
  | .ack _ => x
  | .alive _ => x

/-- The queue with the offer merged into the target nearest the head, and the offer's key taken from any other item that
covers it. -/
def mergeFirst (c : Ctx) (view : List Entry) (f : FaultNews) : List QItem → List QItem
  | [] => []
  | x :: xs =>
    if mergeTarget c f x then mergeInto c f x :: replaceKey view f.origin f.point xs
    else replaceKey view f.origin f.point [x] ++ mergeFirst c view f xs

/-- The merge of condensed mode (R134), where one is made: an OWN or RESYNC FAULT without optional parts, a target, and an
increase of charge within the free charge. -/
def condensedMerge (c : Ctx) (view : List Entry) (x : QItem) (q : QueueSide) : Option QueueSide :=
  match x.item with
  | .fault f =>
    if (x.purpose = .own ∨ x.purpose = .resync) ∧ f.ack = none ∧ f.affected = none ∧ f.origin = c.number then
      match q.queue.find? (mergeTarget c f) with
      | none => none
      | some t =>
        if totalCharge q.queue + (mergeInto c f t).item.charge - t.item.charge ≤ chargeLimit then
          some (QueueSide.count { q with queue := mergeFirst c view f q.queue } .itemsQueued)
        else none
    else none
  | .ack _ => none
  | .compact _ => none
  | .alive _ => none

/-- The condensed-mode test at a total charge (R132). -/
def testAt (c : Ctx) (total : Nat) (q : QueueSide) : QueueSide :=
  if 64 * c.cfg.condenseOn ≤ total then { q with condensed := true }
  else if total ≤ 64 * c.cfg.condenseOff then { q with condensed := false }
  else q

/-- The condensed-mode test at the total charge as it stands (R132). -/
def testCondensed (c : Ctx) (q : QueueSide) : QueueSide := testAt c (totalCharge q.queue) q

/-- The offer as the per-key check left it, placed (R126 from the refusals on). -/
def placeOffer (c : Ctx) (view : List Entry) (x : QItem) (q : QueueSide) : Placed :=
  if q.condensed && condensedRefuses c x then (q.count .droppedCondensed).placed
  else
    match (if q.condensed then condensedMerge c view x q else none) with
    | some merged => merged.placed
    | none =>
      match x.item with
      | .ack a => offerAck c view x a q
      | .fault _ => insertOffer c view x q
      | .compact _ => insertOffer c view x q
      | .alive _ => insertOffer c view x q

/-- One offer handled whole (R126), with the condensed-mode test after its removals and after its insertion (R132), and
whether the queue left condensed mode on the way, even where the insertion brought it back. In a run of removals the total
only falls, so one test at its lowest says what a test after each of them says. -/
def offerTested (c : Ctx) (roll : Vector RollRecord 240) (view : List Entry) (x : QItem) (q : QueueSide) :
    QueueSide × Bool :=
  if c.mode = .run then
    if olderThanRoll c roll x.item then (q, false)
    else
      match perKeyCheck view q.queue x with
      | none => (q, false)
      | some y =>
        let r := placeOffer c view y q
        let low := testAt c r.2 r.1
        (testCondensed c low, q.condensed && !low.condensed)
  else (q, false)

/-- What one offer leaves of the queue side, before a resync pass. -/
def offerCore (c : Ctx) (roll : Vector RollRecord 240) (view : List Entry) (x : QItem) (q : QueueSide) : QueueSide :=
  (offerTested c roll view x q).1

/-! ## The resync pass (R135) -/

/-- The RESYNC offer for an own entry. -/
def resyncItem (c : Ctx) (e : Entry) : QItem := ⟨.fault (e.item c), e.severity, .resync, 0, 0⟩

/-- The resync pass: each own entry whose mark stands as the pass begins, in ascending point order, has the mark cleared
and is offered. -/
def resyncPass (c : Ctx) (roll : Vector RollRecord 240) (view : List Entry) (q : QueueSide) : QueueSide :=
  (view.filter fun e => e.own && tget q.unsent e.point false).foldl
    (fun q e => offerCore c roll view (resyncItem c e) { q with unsent := tset q.unsent e.point false }) q

/-- What follows a removal: the condensed-mode test, and one resync pass when the queue has left condensed mode or has
become empty (R132, R135; log 14). -/
def afterChange (c : Ctx) (roll : Vector RollRecord 240) (view : List Entry) (before after : QueueSide) : QueueSide :=
  let q := testCondensed c after
  if (before.condensed && !q.condensed) || (!before.queue.isEmpty && q.queue.isEmpty) then resyncPass c roll view q
  else q

/-- An offer with everything that follows it: one resync pass where the queue left condensed mode at any of its steps
(R132, R135), made once the offer has been handled whole (log 14). -/
def offerItem (c : Ctx) (roll : Vector RollRecord 240) (view : List Entry) (x : QItem) (q : QueueSide) : QueueSide :=
  let r := offerTested c roll view x q
  if r.2 then resyncPass c roll view r.1 else r.1

/-! ## Duplicate suppression, purge, flush -/

/-- The queued item also covers one of these keys at its stamp: an earlier notice of the same heard COMPACT has counted
for it (R136). -/
def noticedBefore (x : QItem) (o : Nat) (earlier : List (Nat × Stamp)) : Bool :=
  earlier.any fun k => x.stampFor o k.1 == some k.2

/-- A duplicate notice for a key and stamp (R136): a RELAY of that stamp is counted, or withdrawn at the suppression
limit. `earlier` are the keys of earlier notices of the same heard COMPACT. -/
def duplicateNotice (c : Ctx) (roll : Vector RollRecord 240) (view : List Entry) (o p : Nat) (st : Stamp)
    (earlier : List (Nat × Stamp)) (q : QueueSide) : QueueSide :=
  match covering q.queue o p with
  | none => q
  | some x =>
    if x.purpose = .relay ∧ x.stampFor o p = some st ∧ noticedBefore x o earlier = false then
      if c.cfg.suppression ≤ x.heard then
        afterChange c roll view q
          (QueueSide.count { q with queue := q.queue.filter fun y => (y.stampFor o p).isNone } .relaysSuppressed)
      else
        { q with queue := q.queue.map fun y => if (y.stampFor o p).isSome then { y with heard := y.heard + 1 } else y }
    else q

/-- The queued items of an origin at a start count taken as older than the new one leave, with the charge released, not
counted and with no mark set (R115). -/
def purgeOrigin (c : Ctx) (roll : Vector RollRecord 240) (view : List Entry) (o : Nat) (start : Half) (q : QueueSide) :
    QueueSide :=
  afterChange c roll view q
    { q with queue := q.queue.filter fun x => !(x.item.origin == o && countTakenNewer start x.item.start) }

/-- TRUNK FLUSH: the queue emptied, own FAULT items and COMPACT points marked, then the resync pass (R140). -/
def flushQueue (c : Ctx) (roll : Vector RollRecord 240) (view : List Entry) (q : QueueSide) : QueueSide :=
  resyncPass c roll view { q with queue := [], condensed := false, unsent := markUnsent c q.queue q.unsent }

end Sys2Proof.Machine
end

