-- ==== Sys2Proof/Machine/Bulletin.lean ====
section
/-! DEFINITION. The bulletin on the county channel: the bytes a station sends (R145 to R147, R139) and the parse of a
checked frame (R151). -/

namespace Sys2Proof.Machine

/-! ## Sending -/

/-- The age at send: min(65535, age base + now − enqueue time) (R139). -/
def ageAt (now : Time) (age : Nat) (asOf : Time) : Nat := min 65535 (age + since now asOf)

/-- Severity in bits 0..2, hop budget in bits 3..5 (Table 9.3). -/
def sevHopByte (severity hop : Nat) : Byte := byteOf (severity + 8 * hop)

/-- A COMPACT point's five bytes. -/
def pointBytes (now : Time) (x : CompactPoint) : List Byte :=
  byteOf x.point :: (halfBytes x.change ++ natHalfBytes (ageAt now x.age x.asOf))

/-- An optional ack part. -/
def ackBytes : Option Ack → List Byte
  | none => []
  | some a => [byteOf a.station, a.operator]

/-- An optional affected count. -/
def affectedBytes : Option Nat → List Byte
  | none => []
  | some n => [byteOf n]

/-- The state byte of a FAULT: state, ack part follows, affected count follows. -/
def stateByte (st : ItemState) (ack affected : Bool) : Byte :=
  byteOf (st.code + (if ack then 4 else 0) + (if affected then 8 else 0))

/-- The bytes of an item at a station time (R147, Table 9.3). -/
def itemBytes (now : Time) : Item → List Byte
  | .fault f =>
    [0x01, byteOf f.origin, byteOf f.point] ++ halfBytes f.stamp.start ++ halfBytes f.stamp.change ++
      [byteOf f.kind.code, sevHopByte f.severity f.hop, stateByte f.state f.ack.isSome f.affected.isSome,
        byteOf f.occurrences] ++ natHalfBytes (ageAt now f.age f.asOf) ++ ackBytes f.ack ++ affectedBytes f.affected
  | .ack a =>
    [0x02, byteOf a.origin, byteOf a.point] ++ halfBytes a.stamp.start ++ halfBytes a.stamp.change ++
      [byteOf a.ack.station, a.ack.operator, byteOf a.hop]
  | .compact n =>
    [0x03, byteOf n.origin] ++ halfBytes n.start ++
      [byteOf n.kind.code, sevHopByte n.severity n.hop, stateByte n.state false false, byteOf n.points.length] ++
      n.points.flatMap (pointBytes now)
  | .alive a =>
    [0x04, byteOf a.origin, byteOf presencePoint] ++ halfBytes a.start ++ [byteOf a.hop, 0x01]

/-- The header and the items of a bulletin. -/
def bulletinBody (sender : Nat) (start : Half) (now : Time) (items : List Item) : List Byte :=
  byteOf sender :: (halfBytes start ++ byteOf items.length :: items.flatMap (itemBytes now))

/-- The whole run of characters: lead-in, start byte, length, header, items, CRC (R145, R146). -/
def bulletinFrame (body : List Byte) : List Byte :=
  let core := byteOf body.length :: body
  [0x55, 0x55, 0x55, 0x55, 0x7E] ++ core ++ halfBytes (crc core)

/-! ## Parsing (R151) -/

/-- A station number as an origin, a sender or an acking station. -/
def stationOk (b : Byte) : Bool := decide (1 ≤ b.toNat ∧ b.toNat ≤ 240)

/-- A point of a FAULT, ACK or COMPACT. -/
def pointOk (b : Byte) : Bool := decide (b.toNat ≤ 31)

/-- The kind of a kind byte of an item: 1..17; STATION_SILENT is never sent. -/
def itemKind (b : Byte) : Option Kind := if b.toNat = 18 then none else Kind.ofCode b.toNat

/-- The severity of a severity byte; 0 is malformed. -/
def itemSeverity (b : Byte) : Option Nat := if b.toNat % 8 = 0 then none else some (b.toNat % 8)

/-- The hop budget in bits 3..5. -/
def itemHop (b : Byte) : Nat := b.toNat / 8 % 8

/-- An ack part where the state byte says one follows. -/
def parseAckPart (present : Bool) (bs : List Byte) : Option (Option Ack × List Byte) :=
  if present then
    match bs with
    | st :: op :: rest => if stationOk st then some (some ⟨st.toNat, op⟩, rest) else none
    | _ => none
  else some (none, bs)

/-- An affected count where the state byte says one follows. -/
def parseAffected (present : Bool) (bs : List Byte) : Option (Option Nat × List Byte) :=
  if present then
    match bs with
    | n :: rest => if n.toNat ≤ 16 then some (some n.toNat, rest) else none
    | _ => none
  else some (none, bs)

/-- A FAULT after its type code. -/
def parseFault (now : Time) (bs : List Byte) : Option (Item × List Byte) :=
  match bs with
  | o :: p :: s0 :: s1 :: c0 :: c1 :: k :: sh :: st :: occ :: a0 :: a1 :: rest =>
    if stationOk o && pointOk p then
      match itemKind k, itemSeverity sh, ItemState.ofCode (st.toNat % 4) with
      | some kind, some sev, some state =>
        match parseAckPart (st.getLsbD 2) rest with
        | none => none
        | some (ack, rest) =>
          match parseAffected (st.getLsbD 3) rest with
          | none => none
          | some (aff, rest) =>
            some (.fault ⟨o.toNat, p.toNat, ⟨halfOf s0 s1, halfOf c0 c1⟩, kind, sev, state, occ.toNat,
              (halfOf a0 a1).toNat, now, itemHop sh, ack, aff⟩, rest)
      | _, _, _ => none
    else none
  | _ => none

/-- An ACK after its type code. -/
def parseAckItem (bs : List Byte) : Option (Item × List Byte) :=
  match bs with
  | o :: p :: s0 :: s1 :: c0 :: c1 :: st :: op :: hop :: rest =>
    if stationOk o && pointOk p && stationOk st && decide (hop.toNat ≤ 7) then
      some (.ack ⟨o.toNat, p.toNat, ⟨halfOf s0 s1, halfOf c0 c1⟩, ⟨st.toNat, op⟩, hop.toNat⟩, rest)
    else none
  | _ => none

/-- The points of a COMPACT. -/
def parsePoints (now : Time) : Nat → List Byte → Option (List CompactPoint × List Byte)
  | 0, bs => some ([], bs)
  | n + 1, p :: c0 :: c1 :: a0 :: a1 :: rest =>
    if pointOk p then
      match parsePoints now n rest with
      | none => none
      | some (xs, rest) => some (⟨p.toNat, halfOf c0 c1, (halfOf a0 a1).toNat, now⟩ :: xs, rest)
    else none
  | _ + 1, _ => none

/-- No number stands twice in a list. -/
def noTwice : List Nat → Bool
  | [] => true
  | x :: xs => !xs.contains x && noTwice xs

/-- A COMPACT after its type code. -/
def parseCompact (now : Time) (bs : List Byte) : Option (Item × List Byte) :=
  match bs with
  | o :: s0 :: s1 :: k :: sh :: st :: n :: rest =>
    if stationOk o && decide (2 ≤ n.toNat ∧ n.toNat ≤ 8) then
      match itemKind k, itemSeverity sh, ItemState.ofCode (st.toNat % 4) with
      | some kind, some sev, some state =>
        match parsePoints now n.toNat rest with
        | none => none
        | some (xs, rest) =>
          if noTwice (xs.map (·.point)) then
            some (.compact ⟨o.toNat, halfOf s0 s1, kind, sev, state, itemHop sh, xs⟩, rest)
          else none
      | _, _, _ => none
    else none
  | _ => none

/-- An ALIVE after its type code. -/
def parseAlive (bs : List Byte) : Option (Item × List Byte) :=
  match bs with
  | o :: p :: s0 :: s1 :: hop :: sev :: rest =>
    if stationOk o && decide (p.toNat = presencePoint) && decide (hop.toNat ≤ 7) && decide (sev.toNat = 1) then
      some (.alive ⟨o.toNat, halfOf s0 s1, hop.toNat⟩, rest)
    else none
  | _ => none

/-- The next item of a bulletin, from its type code (Table 9.3). -/
def parseItem (now : Time) (bs : List Byte) : Option (Item × List Byte) :=
  match bs with
  | [] => none
  | t :: rest =>
    if t = 0x01 then parseFault now rest
    else if t = 0x02 then parseAckItem rest
    else if t = 0x03 then parseCompact now rest
    else if t = 0x04 then parseAlive rest
    else none

/-- The items, taken to the number the header gives, ending exactly at the last item byte. -/
def parseItems (now : Time) : Nat → List Byte → Option (List Item)
  | 0, [] => some []
  | 0, _ :: _ => none
  | n + 1, bs =>
    match parseItem now bs with
    | none => none
    | some (i, rest) => (parseItems now n rest).map (i :: ·)

/-- A parsed bulletin. -/
structure Bulletin where
  sender : Nat
  start : Half
  items : List Item
  deriving DecidableEq, Repr

/-- The parse of a checked frame's header and items; none is malformed (R151). -/
def parseBulletin (now : Time) (bs : List Byte) : Option Bulletin :=
  match bs with
  | sender :: s0 :: s1 :: n :: rest =>
    if stationOk sender && decide (n.toNat ≤ 12) then
      (parseItems now n.toNat rest).map fun items => ⟨sender.toNat, halfOf s0 s1, items⟩
    else none
  | _ => none

end Sys2Proof.Machine
end

