-- ==== Sys2Proof/Machine/View.lean ====
section
/-! DEFINITION. The Fault View: creation with eviction or refusal, the merges of FAULT items, COMPACT points and ACK
items, and the minute scan (chapter 6). -/

namespace Sys2Proof.Machine

/-- The view holds at most 384 entries (R85). -/
def viewCapacity : Nat := 384

/-- What a merge ends in (R91, Table 6.4). -/
inductive MergeOutcome where
  | created | newer | ackApplied | renewal | duplicate | outdated | unplaced
  deriving DecidableEq, Repr

/-- A creation: in a full view one entry is evicted for it, or it is refused and VIEW_OVERFLOW latched (R104 to R106). The
answer tells whether the entry was stored. -/
def createEntry (c : Ctx) (e : Entry) (v : ViewSide) : ViewSide × Bool :=
  if v.view.length < viewCapacity then ({ v with view := putEntry v.view e }, true)
  else
    match evictionChoice c.now v.view (if e.own then none else some e.severity) with
    | some x =>
      (ViewSide.count { v with view := putEntry (removeEntry v.view x.origin x.point) e } .viewEvictions, true)
    | none => (ViewSide.count { v with viewOverflow := true } .viewRefusals, false)

/-- The affected count an entry stores: only on MAINS_LOST (R87). -/
def storedAffected (k : Kind) (a : Option Nat) : Option Nat := if k = .mainsLost then a else none

/-- The entry state of an item's state. -/
def ItemState.toEntry : ItemState → EntryState
  | .active => .active
  | .cleared => .cleared
  | .inhibited => .inhibited

/-- The occurrences a merge gives the entry: the item's, or for a COMPACT point those of R98. -/
def mergedOccurrences (compact : Bool) (f : FaultNews) (held : Option Entry) : Nat :=
  if compact then
    match held, f.state with
    | none, .active => 1
    | none, .cleared => 0
    | none, .inhibited => 0
    | some e, .active => if e.state = .active then e.occurrences else min 255 (e.occurrences + 1)
    | some e, .cleared => e.occurrences
    | some e, .inhibited => e.occurrences
  else f.occurrences

/-- The entry an item creates (R92), or the tombstone of a CLEARED item (R93). -/
def newEntry (c : Ctx) (compact : Bool) (f : FaultNews) : Entry where
  origin := f.origin
  point := f.point
  kind := f.kind
  severity := f.severity
  state := if f.state = .cleared then .retired else f.state.toEntry
  stamp := some f.stamp
  occurrences := mergedOccurrences compact f none
  ageBase := f.age
  baseTime := c.now
  lastHeard := c.now
  ack := f.ack
  affected := storedAffected f.kind f.affected
  retireTime := if f.state = .cleared then some (c.cfg.retireAt c.now) else none

/-- The state and ack part a newer CLEARED item gives (Table 6.5). -/
def clearedBy (f : FaultNews) (e : Entry) : EntryState × Option Ack :=
  match f.ack with
  | some a => (.retired, some a)
  | none =>
    match e.state with
    | .active => if e.ack.isSome then (.retired, e.ack) else (.cleared, none)
    | .inhibited => (.retired, e.ack)
    | .retired => (.retired, e.ack)
    | .cleared => (.cleared, none)

/-- The entry after an item with a newer stamp (R94, R95). -/
def renewedEntry (c : Ctx) (compact : Bool) (f : FaultNews) (e : Entry) : Entry :=
  let e' := { e with
    kind := f.kind, severity := f.severity, stamp := some f.stamp,
    occurrences := mergedOccurrences compact f (some e), affected := storedAffected f.kind f.affected,
    ageBase := f.age, baseTime := c.now, lastHeard := c.now, stale := false, endedByRestart := false }
  match f.state with
  | .active => { e' with state := .active, ack := f.ack, retireTime := none }
  | .inhibited => { e' with state := .inhibited, ack := f.ack, retireTime := none }
  | .cleared =>
    let r := clearedBy f e
    { e' with state := r.1, ack := r.2, retireTime := if r.1 = .retired then some (c.cfg.retireAt c.now) else none }

/-- Half the refresh interval has gone by since an entry was last heard, with the interval on (R96). -/
def renewalDue (c : Ctx) (e : Entry) : Bool :=
  decide (0 < c.cfg.refresh ∧ 30 * c.cfg.refresh ≤ since c.now e.lastHeard)

/-- The entry after an item of its own stamp, and the outcome (R96). -/
def sameStampEntry (c : Ctx) (f : FaultNews) (e : Entry) : Entry × MergeOutcome :=
  let e' := { e with lastHeard := c.now, stale := false }
  match f.ack, e.ack with
  | some a, none => (e'.acknowledged a (c.cfg.retireAt c.now), .ackApplied)
  | _, _ => (e', if renewalDue c e then .renewal else .duplicate)

/-- The merge of a FAULT item (R92 to R97) or of a COMPACT point (R98). -/
def mergeFault (c : Ctx) (compact : Bool) (f : FaultNews) (v : ViewSide) : ViewSide × MergeOutcome :=
  match findEntry v.view f.origin f.point with
  | none =>
    match f.state with
    | .cleared =>
      (if v.view.length < viewCapacity then { v with view := putEntry v.view (newEntry c compact f) } else v, .created)
    | .active => ((createEntry c (newEntry c compact f) v).1, .created)
    | .inhibited => ((createEntry c (newEntry c compact f) v).1, .created)
  | some e =>
    let held := e.stamp.getD ⟨0, 0⟩
    if held = f.stamp then
      let r := sameStampEntry c f e
      ({ v with view := updateEntry v.view f.origin f.point fun _ => r.1 }, r.2)
    else if f.stamp.takenNewer held then
      ({ v with view := updateEntry v.view f.origin f.point (renewedEntry c compact f) }, .newer)
    else (v, .outdated)

/-- The merge of an ACK item (R99, Table 6.7). -/
def mergeAckItem (c : Ctx) (a : AckNews) (v : ViewSide) : ViewSide × MergeOutcome :=
  match findEntry v.view a.origin a.point with
  | none => (v, .unplaced)
  | some e =>
    let held := e.stamp.getD ⟨0, 0⟩
    if held = a.stamp then
      if e.ack.isSome then (v, .duplicate)
      else
        ({ v with view := updateEntry v.view a.origin a.point fun e => e.acknowledged a.ack (c.cfg.retireAt c.now) },
          .ackApplied)
    else if a.stamp.takenNewer held then (v, .unplaced)
    else (v, .outdated)

/-- A RETIRED entry whose retire time has come (R101). -/
def retireDue (now : Time) (e : Entry) : Bool :=
  e.state == .retired &&
    match e.retireTime with
    | some t => reached now t
    | none => false

/-- STALE marking of an entry not heard for three refresh intervals (R102). -/
def markStale (c : Ctx) (e : Entry) : Entry :=
  if 0 < c.cfg.refresh ∧ e.own = false ∧ e.localOnly = false ∧ (e.state = .active ∨ e.state = .inhibited) ∧
      180 * c.cfg.refresh ≤ since c.now e.lastHeard then
    { e with stale := true }
  else e

/-- The minute scan (R101, R102). -/
def scanView (c : Ctx) (v : List Entry) : List Entry :=
  (v.filter fun e => !retireDue c.now e).map (markStale c)

end Sys2Proof.Machine
end

