-- ==== Sys2Proof/Machine/Roll.lean ====
section
/-! DEFINITION. The Station Roll and what stands on it: relay, correction, epoch advance, evidence of life, own stamps,
start-count advance and own-stamp recovery, heard items and bulletins, silence, presence and refresh (chapters 7 and 8;
R12 to R14, R89, R90). -/

namespace Sys2Proof.Machine

/-! ## Offers from the county side -/

/-- An offer to the Bulletin Queue (R126). -/
def County.offer (c : Ctx) (x : QItem) (k : County) : County :=
  { k with toQueueSide := offerItem c k.roll k.view x k.toQueueSide }

/-- A duplicate notice (R136). -/
def County.notice (c : Ctx) (o p : Nat) (st : Stamp) (earlier : List (Nat × Stamp)) (k : County) : County :=
  { k with toQueueSide := duplicateNotice c k.roll k.view o p st earlier k.toQueueSide }

/-- The roll record of a station. -/
def County.record (k : County) (o : Nat) : RollRecord := rollGet k.roll o

/-- A roll record replaced. -/
def County.setRecord (o : Nat) (r : RollRecord) (k : County) : County := { k with roll := rollSet k.roll o r }

/-- A relay offer, made unless the heard item's hop budget is 0 (R127). -/
def County.relay (c : Ctx) (hop : Nat) (i : Item) (severity : Nat) (k : County) : County :=
  if hop = 0 then k else k.offer c ⟨i, severity, .relay, 1, 0⟩

/-- The last sent time allows a correction (R137). -/
def holdoffOver (c : Ctx) (e : Entry) : Bool :=
  match e.lastSent with
  | none => true
  | some t => decide (c.cfg.holdoff ≤ since c.now t)

/-- The correction check for a key (R137). -/
def County.correct (c : Ctx) (o p : Nat) (k : County) : County :=
  match findEntry k.view o p with
  | none => k
  | some e =>
    if e.localOnly = false ∧ holdoffOver c e = true ∧ (covering k.queue o p).bind (·.stampFor o p) ≠ e.stamp then
      k.offer c ⟨.fault (e.item c), e.severity, .correction, 0, 0⟩
    else k

/-! ## Start counts: first word, epoch advance, evidence of life -/

/-- An entry of the advancing origin at an older epoch (R114, Table 7.2). -/
def closeEntry (c : Ctx) (o : Nat) (start : Half) (e : Entry) : Entry :=
  match e.stamp with
  | none => e
  | some st =>
    if e.origin = o ∧ e.localOnly = false ∧ countTakenNewer start st.start = true then
      match e.state with
      | .active =>
        if e.ack.isSome then
          { e with state := .retired, stale := false, ageBase := 0, baseTime := c.now,
                   retireTime := some (c.cfg.retireAt c.now) }
        else { e with state := .cleared, stale := false, endedByRestart := true, ageBase := 0, baseTime := c.now }
      | .inhibited =>
        { e with state := .retired, stale := false, ageBase := 0, baseTime := c.now,
                 retireTime := some (c.cfg.retireAt c.now) }
      | .cleared => e
      | .retired => e
    else e

/-- The epoch advance of an origin to a start count (R114, R115). -/
def County.advanceEpoch (c : Ctx) (o : Nat) (start : Half) (k : County) : County :=
  let k := k.setRecord o { k.record o with newest := some start }
  let k := { k with view := k.view.map (closeEntry c o start) }
  { k with toQueueSide := purgeOrigin c k.roll k.view o start k.toQueueSide }

/-- The roll takes a start count for a station (R112): the first makes it known, a newer one advances the epoch. -/
def County.takeStart (c : Ctx) (o : Nat) (start : Half) (k : County) : County :=
  match (k.record o).newest with
  | none => k.setRecord o { k.record o with newest := some start, lastHeard := c.now }
  | some n =>
    if start = n then k
    else if countTakenNewer start n then k.advanceEpoch c o start
    else k

/-- The STATION_SILENT entry as life returns (R116). -/
def entryHeardAgain (c : Ctx) (e : Entry) : Entry :=
  if e.state = .active then
    if e.ack.isSome then
      { e with state := .retired, ageBase := 0, baseTime := c.now, retireTime := some (c.cfg.retireAt c.now) }
    else { e with state := .cleared, ageBase := 0, baseTime := c.now }
  else e

/-- Evidence of life for a station (R116). -/
def County.evidence (c : Ctx) (o : Nat) (k : County) : County :=
  let r := k.record o
  let k := k.setRecord o { r with lastHeard := c.now, silent := false }
  if r.silent then { k with view := updateEntry k.view o stationPoint (entryHeardAgain c) } else k

/-! ## Own stamps (R12 to R14, R120, R121) -/

/-- The start record with a new count is to be written: at once, or as the one pending write (R184). -/
def Loader.requestStart (l : Loader) (count : Half) : Loader :=
  match l.op with
  | none => { l with op := some (.startWrite count) }
  | some _ => { l with pendingStart := some count }

/-- The own start count changes while the station runs: the own record takes it, N and Bn become 1, the start record is
written back (R12, R14, R111, R121). -/
def County.setOwnStart (c : Ctx) (start : Half) (k : County) : County :=
  let k := k.setRecord c.number { k.record c.number with newest := some start }
  { k with ownStart := start, nextChange := 1, baseChange := 1, loader := k.loader.requestStart start }

/-- One own entry re-stamped and offered as RESYNC (R121). No check against Bn is due here: N has just become 1 and a
station has at most 32 own entries. -/
def County.restampOne (c : Ctx) (k : County) (p : Nat) : County :=
  let st : Stamp := ⟨k.ownStart, k.nextChange⟩
  let view := updateEntry k.view c.number p fun e => { e with stamp := some st, lastHeard := c.now, ack := none }
  let k := { k with nextChange := k.nextChange + 1, view := view, unsent := tset k.unsent p false }
  match findEntry k.view c.number p with
  | none => k
  | some e => k.offer c (resyncItem c e)

/-- An own ALIVE with the own start count of the moment (R117). -/
def County.offerAlive (c : Ctx) (k : County) : County :=
  k.offer c ⟨.alive ⟨c.number, k.ownStart, c.cfg.hopBudget⟩, 1, .own, 0, 0⟩

/-- Own items still queued under another start count leave, uncounted and unmarked (R121). -/
def County.dropOldOwn (c : Ctx) (k : County) : County :=
  let left := k.queue.filter fun x => !(x.item.origin == c.number && x.item.start != k.ownStart)
  { k with toQueueSide := afterChange c k.roll k.view k.toQueueSide { k.toQueueSide with queue := left } }

/-- The steps of own-stamp recovery after its start-record write (R121), which a start-count advance makes too (R14). The count
has moved by 1 to 32768, so every offer is taken as newer than the own items still queued (R128). -/
def County.restampAll (c : Ctx) (k : County) : County :=
  let points := (k.view.filter (·.own)).map (·.point)
  let k := points.foldl (County.restampOne c) k
  (k.offerAlive c).dropOldOwn c

/-- A start-count advance (R14). -/
def County.advanceStart (c : Ctx) (k : County) : County :=
  (k.setOwnStart c (k.ownStart + 1)).restampAll c

/-- A new own stamp (R13): the check against Bn, a start-count advance where it fails, then (own start count, N). -/
def County.takeStamp (c : Ctx) (k : County) : County × Stamp :=
  let k := if (k.nextChange - k.baseChange).toNat ≤ 32767 then k else k.advanceStart c
  ({ k with nextChange := k.nextChange + 1 }, ⟨k.ownStart, k.nextChange⟩)

/-- Own-stamp recovery from a heard start count (R121). -/
def County.recoverStart (c : Ctx) (heard : Half) (k : County) : County :=
  ({ k with stampConflict := true }.setOwnStart c (heard + 1)).restampAll c

/-- A heard own change number under the own start count (R120). -/
def County.ownChangeHeard (x : Half) (k : County) : County :=
  if countNewer x (k.nextChange - 1) then { k with nextChange := x + 1, stampConflict := true } else k

/-! ## Heard items -/

/-- What the view and the queue do with an outcome but for the relay, which each type of item builds (Table 6.4). -/
def County.handOutcome (c : Ctx) (o p : Nat) (st : Stamp) (earlier : List (Nat × Stamp)) (out : MergeOutcome)
    (k : County) : County :=
  match out with
  | .created => k
  | .newer => k
  | .ackApplied => k
  | .renewal => k
  | .duplicate => k.notice c o p st earlier
  | .outdated => (k.count .staleHeard).correct c o p
  | .unplaced => k.count .staleHeard

/-- The outcome is evidence of life for the origin (R91, R116). -/
def MergeOutcome.isLife : MergeOutcome → Bool
  | .created => true
  | .newer => true
  | .ackApplied => false
  | .renewal => false
  | .duplicate => false
  | .outdated => false
  | .unplaced => false

/-- The outcome offers a relay (R91, R127). -/
def MergeOutcome.isRelayed : MergeOutcome → Bool
  | .created => true
  | .newer => true
  | .ackApplied => true
  | .renewal => true
  | .duplicate => false
  | .outdated => false
  | .unplaced => false

/-- The relay of a FAULT: the content as heard with a hop less, and the ack part the view holds for the stamp (R127). -/
def relayFault (v : List Entry) (f : FaultNews) : FaultNews :=
  let held := (findEntry v f.origin f.point).bind fun e => if e.stamp = some f.stamp then e.ack else none
  { f with hop := f.hop - 1, ack := held.or f.ack }

/-- A heard FAULT of another origin, past the epoch check (R92 to R97, R127). -/
def County.hearFault (c : Ctx) (f : FaultNews) (k : County) : County :=
  let r := mergeFault c false f k.toViewSide
  let k := { k with toViewSide := r.1 }
  let k := if r.2.isLife then k.evidence c f.origin else k
  let k := k.handOutcome c f.origin f.point f.stamp [] r.2
  if r.2.isRelayed then k.relay c f.hop (.fault (relayFault k.view f)) f.severity else k

/-- One point of a COMPACT as the FAULT it is merged as (R89). -/
def compactNewsAt (n : CompactNews) (y : CompactPoint) : FaultNews :=
  ⟨n.origin, y.point, ⟨n.start, y.change⟩, n.kind, n.severity, n.state, 0, y.age, y.asOf, n.hop, none, none⟩

/-- One point of a heard COMPACT merged and handed on (R98); the lists gather the points to relay and the keys of the
duplicate notices. -/
def County.hearPoint (c : Ctx) (n : CompactNews) (acc : County × List CompactPoint × List (Nat × Stamp))
    (y : CompactPoint) : County × List CompactPoint × List (Nat × Stamp) :=
  let f := compactNewsAt n y
  let r := mergeFault c true f acc.1.toViewSide
  let k := { acc.1 with toViewSide := r.1 }
  let k := if r.2.isLife then k.evidence c n.origin else k
  let k := k.handOutcome c n.origin y.point f.stamp acc.2.2 r.2
  (k, if r.2.isRelayed then acc.2.1 ++ [y] else acc.2.1,
    if r.2 = .duplicate then acc.2.2 ++ [(y.point, f.stamp)] else acc.2.2)

/-- A heard COMPACT of another origin, past the epoch check (R98, R127). -/
def County.hearCompact (c : Ctx) (n : CompactNews) (k : County) : County :=
  let r := n.points.foldl (County.hearPoint c n) (k, [], [])
  match compactOf r.1.view { n with hop := n.hop - 1, points := r.2.1 } with
  | none => r.1
  | some i => r.1.relay c n.hop i n.severity

/-- A heard ACK that may be merged (R99, R127). -/
def County.hearAck (c : Ctx) (a : AckNews) (k : County) : County :=
  let r := mergeAckItem c a k.toViewSide
  let k := { k with toViewSide := r.1 }
  let k := k.handOutcome c a.origin a.point a.stamp [] r.2
  if r.2.isRelayed then
    match findEntry k.view a.origin a.point with
    | none => k
    | some e => k.relay c a.hop (.ack { a with hop := a.hop - 1 }) e.severity
  else k

/-- The roll from before a bulletin once its header or an item has offered a start count: a station that it makes known, or
whose epoch it advances, stands there as unknown from then on (R118: an ALIVE of that station is then NEW). -/
def County.notePrior (k : County) (o : Nat) (start : Half) (prior : Vector RollRecord 240) : Vector RollRecord 240 :=
  match (k.record o).newest with
  | none => rollSet prior o {}
  | some n => if start ≠ n ∧ countTakenNewer start n = true then rollSet prior o {} else prior

/-- A heard ALIVE of another origin, past the epoch check (R118). `prior` is the roll from before the bulletin, with the
stations made known or advanced since then as unknown: their ALIVE is NEW. -/
def County.hearAlive (c : Ctx) (prior : Vector RollRecord 240) (a : AliveNews) (k : County) : County :=
  let before := rollGet prior a.origin
  if before.newest = none ∨ 30 * c.cfg.presence ≤ since c.now before.lastHeard then
    (k.evidence c a.origin).relay c a.hop (.alive { a with hop := a.hop - 1 }) 1
  else k.notice c a.origin presencePoint ⟨a.start, 0⟩ []

/-- An item of own origin (R90, R120, R121). Only a start count that is newer by R88 begins the recovery; one at a difference of
exactly 32768 is neither newer nor older and changes nothing (log 17). -/
def County.hearOwn (c : Ctx) (i : Item) (k : County) : County :=
  if i.start = k.ownStart then
    match i with
    | .fault f => k.ownChangeHeard f.stamp.change
    | .compact n => n.points.foldl (fun k y => k.ownChangeHeard y.change) k
    | .ack a => (k.ownChangeHeard a.stamp.change).hearAck c a
    | .alive _ => k
  else if countNewer i.start k.ownStart then k.recoverStart c i.start
  else k

/-- The item's start count is older than the newest the roll holds: IGNORED (R90). -/
def olderEpoch (k : County) (i : Item) : Bool :=
  match (k.record i.origin).newest with
  | none => false
  | some n => i.start != n && !countTakenNewer i.start n

/-- One heard item, taken whole (R90, R152). `prior` is the roll from before the bulletin as `notePrior` has left it for
the header and the items before this one. -/
def County.hearItem (c : Ctx) (prior : Vector RollRecord 240) (k : County) (i : Item) : County :=
  if i.origin = c.number then k.hearOwn c i
  else if olderEpoch k i then k.count .staleHeard
  else
    let prior := k.notePrior i.origin i.start prior
    let k := k.takeStart c i.origin i.start
    match i with
    | .fault f => k.hearFault c f
    | .compact n => k.hearCompact c n
    | .ack a => k.hearAck c a
    | .alive a => k.hearAlive c prior a

/-! ## Bulletins (R113, R152) -/

/-- The sender's header once it is not this station's own number (R113): the start count taken, then life and the
heard-direct count, or corrections to a sender that has gone back. -/
def County.takeHeader (c : Ctx) (sender : Nat) (start : Half) (k : County) : County :=
  let k := k.takeStart c sender start
  let r := k.record sender
  if r.newest = some start then
    let k := k.evidence c sender
    k.setRecord sender { k.record sender with heardDirect := r.heardDirect + 1 }
  else
    let old := k.view.filter fun e => e.origin == sender && !e.localOnly && e.stamp.map (·.start) == r.newest
    old.foldl (fun k e => k.correct c e.origin e.point) k

/-- One item of a bulletin handed on, with what the items behind it are to know of the roll from before the bulletin. -/
def County.hearNext (c : Ctx) (acc : County × Vector RollRecord 240) (i : Item) : County × Vector RollRecord 240 :=
  (acc.1.hearItem c acc.2 i, acc.1.notePrior i.origin i.start acc.2)

/-- A good bulletin handed on (R152): counted, its header to the roll, its items in order. -/
def County.hearBulletin (c : Ctx) (sender : Nat) (start : Half) (items : List Item) (k : County) : County :=
  let k := k.count .heardGood
  if sender = c.number then { k.count .duplicateStation with duplicateStation := true }
  else (items.foldl (County.hearNext c) (k.takeHeader c sender start, k.notePrior sender start k.roll)).1

/-! ## Silence, presence, refresh -/

/-- The STATION_SILENT entry of a station declared silent (R119). -/
def silentEntry (c : Ctx) (o : Nat) : Entry where
  origin := o
  point := stationPoint
  kind := .stationSilent
  severity := c.cfg.severity[17]
  state := .active
  stamp := none
  occurrences := 1
  ageBase := 0
  baseTime := c.now
  lastHeard := c.now
  localOnly := true

/-- A held STATION_SILENT entry re-opened (R119). -/
def reopenSilent (c : Ctx) (e : Entry) : Entry :=
  if e.state = .active then e
  else
    { e with state := .active, ack := none, retireTime := none, occurrences := min 255 (e.occurrences + 1),
             ageBase := 0, baseTime := c.now }

/-- The silence condition of a record (R119). -/
def silenceDue (c : Ctx) (o : Nat) (r : RollRecord) : Bool :=
  r.newest.isSome && decide (o ≠ c.number) && !r.silent &&
    decide (0 < c.cfg.silence ∧ 60 * c.cfg.silence ≤ since c.now r.lastHeard)

/-- The silence check of one station (R119): a refused creation leaves the record not silent. -/
def County.checkSilence (c : Ctx) (k : County) (o : Nat) : County :=
  let r := k.record o
  if silenceDue c o r then
    match findEntry k.view o stationPoint with
    | some _ =>
      { k.setRecord o { r with silent := true } with view := updateEntry k.view o stationPoint (reopenSilent c) }
    | none =>
      let v := createEntry c (silentEntry c o) k.toViewSide
      let k := { k with toViewSide := v.1 }
      if v.2 then k.setRecord o { r with silent := true } else k
  else k

/-- The station numbers in ascending order. -/
def stationNumbers : List Nat := (List.range 240).map (· + 1)

/-- The silence check (R119). -/
def County.checkAllSilence (c : Ctx) (k : County) : County := stationNumbers.foldl (County.checkSilence c) k

/-- The refresh (R138): own ACTIVE and INHIBITED entries in ascending point order, with the refresh interval on. -/
def County.refreshOwn (c : Ctx) (k : County) : County :=
  if c.cfg.refresh = 0 then k
  else
    (k.view.filter fun e => e.own && (e.state == .active || e.state == .inhibited)).foldl
      (fun k e => k.offer c ⟨.fault (e.item c), e.severity, .refresh, 0, 0⟩) k

end Sys2Proof.Machine
end

