-- ==== Sys2Proof/Machine/Trunk.lean ====
section
/-! DEFINITION. The Trunk Controller: the channel, reception, deference, assembly and transmission, enable and disable
(chapter 9), and `State.settle`: what every event that touches the view, the level, the queue or the channel ends with. -/

namespace Sys2Proof.Machine

/-! ## The channel and the random-number generator -/

/-- The receiver is blind: the controller is in KEYUP or SEND (R150). -/
def Trunk.blind (t : Trunk) : Bool := t.access == .keyup || t.access == .send

/-- The channel is busy: CD is active or a frame is being taken (R150). -/
def Trunk.busy (t : Trunk) : Bool := t.cd || t.rx.isSome

/-- KEY is asserted in KEYUP and SEND (Table 9.5). -/
def Trunk.key (t : Trunk) : Bool := t.access == .keyup || t.access == .send

/-- The characters TXD carries: the bulletin in SEND; at the mark level otherwise (R144, R157). -/
def Trunk.txd (t : Trunk) : List Byte := if t.access = .send then t.bulletin.getD [] else []

/-- One step of the register: bits 0, 2, 3 and 5 into bit 15 (R154). -/
def lfsrStep (r : Half) : Half :=
  (r >>> 1) ||| (if r.getLsbD 0 ^^ r.getLsbD 2 ^^ r.getLsbD 3 ^^ r.getLsbD 5 then 0x8000#16 else 0)

/-- The register after a draw: four steps (R154). -/
def lfsrDraw (r : Half) : Half := lfsrStep (lfsrStep (lfsrStep (lfsrStep r)))

/-- The register as loaded at entry to RUN: station number × 256 + the low byte of the own start count, 0 replaced by 1. -/
def lfsrSeed (number : Nat) (ownStart : Half) : Half :=
  let v := BitVec.ofNat 16 (number * 256 + ownStart.toNat % 256)
  if v = 0 then 1 else v

/-! ## What an event ends with -/

/-- The attention condition: an unacknowledged ACTIVE or CLEARED entry above the level (R164). -/
def attentionCondition (v : List Entry) (level : Nat) : Bool := v.any fun e => e.calls level

/-- The access state as an event leaves it: an access opening from IDLE with a fresh draw (R153, R154), a slot discarded
on a busy channel, a full slot started on a clear one (R155). -/
def Trunk.settled (t : Trunk) (q : List QItem) (clock : Instant) : Trunk :=
  match t.access with
  | .idle =>
    if t.enable = .enabled ∧ t.busy = false then
      match q with
      | [] => t
      | x :: _ =>
        let r := lfsrDraw t.lfsr
        { t with access := .defer, lfsr := r, count := 8 - x.severity + r.toNat % 16, slot := some clock }
    else t
  | .defer =>
    if t.busy then { t with slot := none }
    else if t.slot.isNone then { t with slot := some clock }
    else t
  | .off => t
  | .keyup => t
  | .send => t

/-- The end of an event: the attention output follows its condition (R164) and the access state settles (log 13). -/
def State.settle (s : State) : State :=
  { s with attention := attentionCondition s.view s.level, trunk := s.trunk.settled s.queue s.clock }

/-! ## Reception -/

/-- A frame abandoned: counted, the receiver hunting (R149). -/
def State.abandonFrame (s : State) (i : CounterId) : State :=
  State.count { s with trunk := { s.trunk with rx := none } } i

/-- A frame whose second CRC character has been taken: checked, parsed, handed on (R149, R151, R152). -/
def State.endFrame (s : State) (length : Nat) (chars : List Byte) : State :=
  let s := { s with trunk := { s.trunk with rx := none } }
  let body := chars.take length
  if halfBytes (crc (byteOf length :: body)) = chars.drop length then
    match parseBulletin s.now body with
    | none => s.count .badFormat
    | some b => s.setCounty (s.toCounty.hearBulletin s.ctx b.sender b.start b.items)
  else s.count .badCheck

/-- A character taken from RXD (R148, R149). -/
def State.trunkChar (s : State) (v : Byte) (framing : Bool) : State :=
  if s.live = false ∨ s.trunk.blind = true then s
  else
    match s.trunk.rx with
    | none =>
      if v = 0x7E ∧ framing = false ∧ s.trunk.cd = true then
        State.settle { s with trunk := { s.trunk with rx := some ⟨none, []⟩ } }
      else s
    | some f =>
      if framing then (s.abandonFrame .badFormat).settle
      else
        match f.length with
        | none =>
          if 4 ≤ v.toNat ∧ v.toNat ≤ 240 then
            { s with trunk := { s.trunk with rx := some ⟨some v.toNat, []⟩ } }
          else (s.abandonFrame .badFormat).settle
        | some n =>
          let chars := f.chars ++ [v]
          if chars.length = n + 2 then (s.endFrame n chars).settle
          else { s with trunk := { s.trunk with rx := some ⟨some n, chars⟩ } }

/-- TRUNK_CHARACTER_RECEIVED (R148). -/
def execTrunkCharacterReceived (v : Byte) (framing : Bool) (s : State) : Host.Outcome State Fault Refusal :=
  .next (s.trunkChar v framing)

/-- CD_ACTIVE (R150): the level of the pin is followed in every station state; a blind controller does not look at it. -/
def execCdActive (s : State) : Host.Outcome State Fault Refusal :=
  .next (State.settle { s with trunk := { s.trunk with cd := true } })

/-- CD_INACTIVE (R149, R150): a frame in progress is truncated. -/
def execCdInactive (s : State) : Host.Outcome State Fault Refusal :=
  if s.trunk.cd then
    let s := { s with trunk := { s.trunk with cd := false } }
    .next (if s.trunk.rx.isSome then (s.abandonFrame .truncated).settle else s.settle)
  else .next s

/-! ## Assembly and transmission -/

/-- At most twelve items and 236 item bytes in a bulletin (R145, R156). -/
def bulletinItems : Nat := 12
def bulletinItemBytes : Nat := 236

/-- A taken item sets the last sent time of the entries it covers: own items of purpose OWN, RESYNC or REFRESH and every
CORRECTION, FAULT and COMPACT items only (R156, R86). -/
def setsLastSent (c : Ctx) (x : QItem) : Bool :=
  match x.item with
  | .ack _ => false
  | .alive _ => false
  | .fault _ | .compact _ =>
    match x.purpose with
    | .correction => true
    | .relay => false
    | .own => x.item.origin == c.number
    | .resync => x.item.origin == c.number
    | .refresh => x.item.origin == c.number

/-- The view with the last sent time of a taken item's keys set to now. -/
def markSent (c : Ctx) (x : QItem) (v : List Entry) : List Entry :=
  if setsLastSent c x then
    x.item.points.foldl (fun v p => updateEntry v x.item.origin p fun e => { e with lastSent := some c.now }) v
  else v

/-- One item taken into a bulletin: it leaves the queue, its entries are marked sent, the condensed-mode test and a resync
pass follow (R139, R156). -/
def County.takeItem (c : Ctx) (limit : Nat) (x : QItem) (k : County) : County :=
  let k := { k with view := markSent c x k.view }
  let left := k.queue.eraseP fun y => decide (y.seq < limit)
  { k with toQueueSide := afterChange c k.roll k.view k.toQueueSide { k.toQueueSide with queue := left } }

/-- Items taken from the head, of those queued before the assembly began (those below `limit`), until twelve are taken,
none is left, or the next would carry the item bytes above 236 (R156). -/
def County.takeItems (c : Ctx) (limit : Nat) : Nat → Nat → County → List Item → County × List Item
  | 0, _, k, taken => (k, taken)
  | n + 1, used, k, taken =>
    match k.queue.find? fun y => decide (y.seq < limit) with
    | none => (k, taken)
    | some x =>
      if used + x.item.size ≤ bulletinItemBytes then
        County.takeItems c limit n (used + x.item.size) (k.takeItem c limit x) (taken ++ [x.item])
      else (k, taken)

/-- Entry to KEYUP with the assembly of the bulletin, and to SEND in the same event with a key-up delay of 0 (R156,
R157). -/
def State.keyUp (s : State) : State :=
  let r := s.toCounty.takeItems s.ctx s.nextSeq bulletinItems 0 []
  let frame := bulletinFrame (bulletinBody s.number r.1.ownStart s.now r.2)
  let access := if s.cfg.keyUpDelay = 0 then AccessState.send else .keyup
  { s.setCounty r.1 with
    trunk := { s.trunk with access := access, count := 0, slot := none, rx := none, bulletin := some frame,
                            since := some s.clock } }

/-- SLOT_EXPIRY (R155): only while a slot runs. -/
def execSlotExpiry (s : State) : Host.Outcome State Fault Refusal :=
  if s.trunk.access = .defer ∧ s.trunk.slot.isSome = true then
    if 1 < s.trunk.count then
      .next { s with trunk := { s.trunk with count := s.trunk.count - 1, slot := some s.clock } }
    else if s.queue.isEmpty then
      .next { s with trunk := { s.trunk with access := .idle, count := 0, slot := none } }
    else .next s.keyUp.settle
  else .next s

/-- KEYUP_DELAY_EXPIRY (R157): only in KEYUP. -/
def execKeyupDelayExpiry (s : State) : Host.Outcome State Fault Refusal :=
  if s.trunk.access = .keyup then .next { s with trunk := { s.trunk with access := .send, since := some s.clock } }
  else .next s

/-- SEND_COMPLETE (R157): only in SEND. -/
def execSendComplete (s : State) : Host.Outcome State Fault Refusal :=
  if s.trunk.access = .send then
    let t := { s.trunk with bulletin := none, since := none }
    let t := if t.enable = .enabled then { t with access := .idle } else { t with access := .off, enable := .disabled }
    .next (State.count { s with trunk := t } .bulletinsSent).settle
  else .next s

/-! ## Enable, disable, flush -/

/-- TRUNK DISABLE by the access state (R158). -/
def Trunk.disabled (t : Trunk) : Trunk :=
  match t.enable, t.access with
  | .enabled, .keyup => { t with enable := .draining }
  | .enabled, .send => { t with enable := .draining }
  | .enabled, .idle => { t with enable := .disabled, access := .off, count := 0, slot := none }
  | .enabled, .defer => { t with enable := .disabled, access := .off, count := 0, slot := none }
  | .enabled, .off => { t with enable := .disabled }
  | .draining, _ => t
  | .disabled, _ => t

/-- The enable state and access state as bytes (Table 11.3). -/
def Trunk.stateBytes (t : Trunk) : List Byte := [t.enable.code, t.access.code]

end Sys2Proof.Machine
end

