-- ==== Sys2Proof/Machine/Filter.lean ====
section
/-! DEFINITION. The Point Filter: samples, declarations, own entries and own items, INHIBIT and RELEASE (chapter 1), with
the supply side of correlation (R80, R81). -/

namespace Sys2Proof

open Sys2Proof.Machine (Family Kind)

/-- The family of a configured point; none for a point that is not configured (R1, Table 1.1). -/
def Settings.family (c : Settings) (p : Nat) : Option Family :=
  if p < 16 then
    match c.channel p with
    | .lamp _ => some .lamp
    | .loop _ => some .loop
    | .off => none
  else if p < 24 then (if (c.signAt (p - 15)).present then some .sign else none)
  else if p < 32 then
    match (c.inputAt (p - 24)).role with
    | .mains => some .input
    | .door => some .input
    | .general => some .input
    | .demand => none
    | .unused => none
  else none

/-- The parameter set of a family (R6). -/
def Settings.params (c : Settings) (f : Family) : FamilyParams :=
  match f with
  | .lamp => c.lamp
  | .loop => c.loop
  | .sign => c.sign
  | .input => c.input

/-- The parameter set a point's filter uses; a point of no family takes no samples. -/
def Settings.paramsOf (c : Settings) (p : Nat) : FamilyParams := c.params ((c.family p).getD .input)

/-- The severity of a kind by the table (R3). -/
def Settings.severityOf (c : Settings) (k : Kind) : Nat := Machine.tget c.severity (k.code - 1) 1

/-- The kind of a role's point (R2). -/
def roleKind (r : Role) : Kind :=
  match r with
  | .mains => .mainsLost
  | .door => .doorOpen
  | .general => .inputActive
  | .demand => .inputActive
  | .unused => .inputActive

/-- The principal kind of a point (R2). -/
def Settings.principalKind (c : Settings) (p : Nat) : Kind :=
  match c.family p with
  | some .lamp => .lampOut
  | some .loop => .loopOpen
  | some .sign => .signComm
  | some .input => roleKind (c.inputAt (p - 24)).role
  | none => roleKind (c.inputAt (p - 24)).role

end Sys2Proof

namespace Sys2Proof.Machine

/-! ## Evidence (R7) -/

/-- An abnormal sample of a kind updates the evidence. -/
def FilterRecord.raise (f : FilterRecord) (c : FamilyParams) (k : Kind) : FilterRecord :=
  { f with p := min 63 (f.p + c.up), l := some k, r := if f.l = some k then min 15 (f.r + 1) else 1 }

/-- A NORMAL sample updates the evidence. -/
def FilterRecord.lower (f : FilterRecord) (c : FamilyParams) : FilterRecord :=
  { f with p := f.p - c.down, r := 0, l := none }

/-! ## Supply correlation (R29, R80, R81) -/

/-- A channel's supply is lost while its supply point's declared state is FAULT (R29). -/
def State.supplyLost (s : State) (cfg : LampCfg) : Bool :=
  match cfg.supply with
  | none => false
  | some i =>
    match (s.filter (inputPoint i)).declared with
    | .fault _ => true
    | .unused => false
    | .normal => false
    | .inhibited => false

/-- A LAMP channel that names the input as supply, with its record. -/
def State.suppliedLamp (s : State) (i c : Nat) : Option LampRecord :=
  match s.cfg.channel c, s.channel c with
  | .lamp cfg, .lamp r => if cfg.supply = some i then some r else none
  | _, _ => none

/-- The channel numbers. -/
def channelNumbers : List Nat := List.range 16

/-- The affected count: LAMP channels naming the input as supply with demand ON now (R81). -/
def State.affectedCount (s : State) (i : Nat) : Nat :=
  (channelNumbers.filter fun c =>
    match s.suppliedLamp i c with
    | some r => r.demand
    | none => false).length

/-- The affected count a point's own entry takes: on a MAINS point only (R81). -/
def State.pointAffected (s : State) (p : Nat) : Option Nat :=
  if 24 ≤ p ∧ (s.cfg.inputAt (p - 24)).role = .mains then some (s.affectedCount (p - 24)) else none

/-- The supply of an input's point has returned: a warm-up restart of each lamp channel naming it (R29, Table 5.3). -/
def State.supplyReturned (s : State) (i : Nat) : State :=
  channelNumbers.foldl (fun s c =>
    match s.suppliedLamp i c with
    | some r => s.setChannel c (.lamp (r.warmRestart s.now))
    | none => s) s

/-- A point has left FAULT: for a MAINS point the supply returns (R80). -/
def State.leftFault (s : State) (p : Nat) : State :=
  if 24 ≤ p ∧ (s.cfg.inputAt (p - 24)).role = .mains then s.supplyReturned (p - 24) else s

/-! ## Own entries (R16 to R18) -/

/-- The own entry as an onset or an INHIBIT makes it; its last sent time is kept where it had one (R16, R17). -/
def freshOwnEntry (c : Ctx) (p : Nat) (k : Kind) (state : EntryState) (st : Stamp) (occ : Nat) (affected : Option Nat)
    (old : Option Entry) : Entry where
  origin := c.number
  point := p
  kind := k
  severity := c.cfg.severityOf k
  state := state
  stamp := some st
  occurrences := occ
  ageBase := 0
  baseTime := c.now
  lastHeard := c.now
  affected := affected
  own := true
  lastSent := old.bind (·.lastSent)

/-- The own entry after a kind change: age base and base time kept, ack part removed (R16). -/
def changedOwnEntry (c : Ctx) (k : Kind) (st : Stamp) (e : Entry) : Entry :=
  { e with state := .active, kind := k, severity := c.cfg.severityOf k, stamp := some st, lastHeard := c.now, ack := none }

/-- The own entry after a clear: RETIRED with its ack part retargeted, or CLEARED (R17). -/
def clearedOwnEntry (c : Ctx) (st : Stamp) (affected : Option Nat) (e : Entry) : Entry :=
  let e := { e with stamp := some st, ageBase := 0, baseTime := c.now, lastHeard := c.now, affected := affected }
  if e.ack.isSome then { e with state := .retired, retireTime := some (c.cfg.retireAt c.now) }
  else { e with state := .cleared }

/-- The own entry after a RELEASE (R18). -/
def releasedOwnEntry (c : Ctx) (st : Stamp) (affected : Option Nat) (e : Entry) : Entry :=
  { e with state := .retired, stamp := some st, ageBase := 0, baseTime := c.now, lastHeard := c.now,
           affected := affected, retireTime := some (c.cfg.retireAt c.now) }

/-- An own entry stored: in place, or created, which in a full view evicts (R104). -/
def County.putOwn (c : Ctx) (e : Entry) (k : County) : County :=
  match findEntry k.view e.origin e.point with
  | some _ => { k with view := putEntry k.view e }
  | none => { k with toViewSide := (createEntry c e k.toViewSide).1 }

/-- The own item queued from the own entry as it now stands (R19). -/
def County.offerOwn (c : Ctx) (p : Nat) (k : County) : County :=
  match findEntry k.view c.number p with
  | none => k
  | some e => k.offer c ⟨.fault (e.item c), e.severity, .own, 0, 0⟩

/-- A change of an own point: a stamp is taken, the own entry updated, the own item queued (R13, R16 to R19). -/
def County.ownChange (c : Ctx) (p : Nat) (entry : Stamp → Option Entry → Entry) (k : County) : County :=
  let r := k.takeStamp c
  (r.1.putOwn c (entry r.2 (findEntry r.1.view c.number p))).offerOwn c p

/-! ## Declarations (R9 to R11) -/

/-- The point's own entry and item for a change. -/
def State.declareChange (s : State) (p : Nat) (entry : Stamp → Option Entry → Entry) : State :=
  s.setCounty (s.toCounty.ownChange s.ctx p entry)

/-- Onset (R9, R16). -/
def State.declareOnset (s : State) (p : Nat) (k : Kind) (f : FilterRecord) : State :=
  let f := { f with declared := .fault k, occurrences := min 255 (f.occurrences + 1) }
  let s := s.setFilter p f
  s.declareChange p fun st old => freshOwnEntry s.ctx p k .active st f.occurrences (s.pointAffected p) old

/-- Kind change (R10, R16). A point in FAULT has an own entry (R16); should it have none, one is created (log 22). -/
def State.declareKind (s : State) (p : Nat) (k : Kind) (f : FilterRecord) : State :=
  let s := s.setFilter p { f with declared := .fault k }
  s.declareChange p fun st old =>
    match old with
    | some e => changedOwnEntry s.ctx k st e
    | none => freshOwnEntry s.ctx p k .active st f.occurrences none none

/-- Clear (R11, R17), with the supply's return for a MAINS point (R29). -/
def State.declareClear (s : State) (p : Nat) (k : Kind) (f : FilterRecord) : State :=
  let s := s.setFilter p { f with declared := .normal }
  let s := s.declareChange p fun st old =>
    let base := old.getD (freshOwnEntry s.ctx p k .active st f.occurrences none none)
    clearedOwnEntry s.ctx st (s.pointAffected p) base
  s.leftFault p

/-- A sample applied (R7, R9 to R11). -/
def State.applySample (s : State) (p : Nat) (cls : SampleClass) : State :=
  let f := s.filter p
  let c := s.cfg.paramsOf p
  match f.declared, cls with
  | .unused, _ => s
  | .inhibited, _ => s
  | .normal, .neutral => s
  | .fault _, .neutral => s
  | .normal, .normal => s.setFilter p (f.lower c)
  | .normal, .abnormal k =>
    let f := f.raise c k
    if c.on ≤ f.p then s.declareOnset p k f else s.setFilter p f
  | .fault d, .normal =>
    let f := f.lower c
    if f.p ≤ c.off then s.declareClear p d f else s.setFilter p f
  | .fault d, .abnormal k =>
    let f := f.raise c k
    if k ≠ d ∧ c.confirm ≤ f.r then s.declareKind p k f else s.setFilter p f

/-! ## INHIBIT and RELEASE -/

/-- INHIBIT of a configured point in NORMAL or FAULT (R15, R17). -/
def State.inhibitPoint (s : State) (p : Nat) (f : FilterRecord) (k : Option Kind) : State :=
  let s := s.setFilter p { f with declared := .inhibited }
  let s := s.declareChange p fun st old =>
    let kind := match k, old with
      | some k, _ => k
      | none, some e => e.kind
      | none, none => s.cfg.principalKind p
    freshOwnEntry s.ctx p kind .inhibited st f.occurrences (s.pointAffected p) old
  if k.isSome then s.leftFault p else s

/-- INHIBIT(p), in the order of R15. -/
def State.inhibit (s : State) (p : Nat) : State × Status :=
  if s.mode = .listen then (s, .wrongState)
  else if 31 < p then (s, .notLocal)
  else
    match (s.filter p).declared with
    | .unused => (s, .notConfigured)
    | .inhibited => (s, .ok)
    | .normal => ((s.inhibitPoint p (s.filter p) none).settle, .ok)
    | .fault k => ((s.inhibitPoint p (s.filter p) (some k)).settle, .ok)

/-- A released lamp point with demand ON restarts its channel's warm-up (R30). -/
def State.releaseWarmUp (s : State) (p : Nat) : State :=
  match s.channel p with
  | .lamp r => if p < 16 then s.setChannel p (.lamp (r.warmRestart s.now)) else s
  | .loop _ => s
  | .off _ _ => s

/-- RELEASE of an INHIBITED point (R18). -/
def State.releasePoint (s : State) (p : Nat) (f : FilterRecord) : State :=
  let s := s.setFilter p { f with declared := .normal, p := 0, r := 0, l := none }
  let s := s.declareChange p fun st old =>
    let base := old.getD (freshOwnEntry s.ctx p (s.cfg.principalKind p) .inhibited st f.occurrences none none)
    releasedOwnEntry s.ctx st (s.pointAffected p) base
  s.releaseWarmUp p

/-- RELEASE(p), in the order of R18. -/
def State.release (s : State) (p : Nat) : State × Status :=
  if s.mode = .listen then (s, .wrongState)
  else if 31 < p then (s, .notLocal)
  else
    match (s.filter p).declared with
    | .unused => (s, .notConfigured)
    | .normal => (s, .wrongState)
    | .fault _ => (s, .wrongState)
    | .inhibited => ((s.releasePoint p (s.filter p)).settle, .ok)

end Sys2Proof.Machine
end

