-- ==== Sys2Proof/Machine/Loop.lean ====
section
/-! DEFINITION. A LOOP channel's record: open test, capture, deviation and drift, occupancy, classification and baseline
tracking (chapter 3). -/

namespace Sys2Proof.Machine

/-- A count as it is delivered: at most 65535 (R39). -/
def measuredCount (c : Nat) : Nat := min 65535 c

/-- The gate length in ms of a gate length code (R40). -/
def gateLength (code : Nat) : Nat :=
  match code with
  | 0 => 50
  | 2 => 200
  | _ => 100

/-- The reference count: floor(B / 64) (R41). -/
def refCount (baseline : Nat) : Nat := baseline / 64

/-- The deviation d in 0.01 %, truncated toward zero and clamped to −3200..3200 (R44). -/
def loopDeviation (count cref : Nat) : Int :=
  max (-3200) (min 3200 (Int.tdiv (((count : Int) - cref) * 10000) cref))

/-- The drift e in 0.1 %, rounded down, at most 1000 (R45). -/
def loopDrift (cref cnom : Nat) : Nat := min 1000 (((cref : Int) - cnom).natAbs * 1000 / cnom)

/-- A measured gate is occupied when detect ≤ d < short limit (R46). -/
def gateOccupied (cfg : LoopCfg) (d : Int) : Bool := decide ((cfg.detect : Int) ≤ d ∧ d < cfg.shortLimit)

/-- The occupancy update of a gate at its time (R46). -/
def LoopRecord.occupy (r : LoopRecord) (occupied : Bool) (now : Time) : LoopRecord :=
  match occupied, r.occStart with
  | true, none => { r with occStart := some now }
  | true, some _ => r
  | false, some _ => { r with occStart := none, lastOccEnd := some now }
  | false, none => r

/-- The class of a measured gate: rows 3 to 7 of Table 3.3 (R47, R49 to R52), with the occupancy as updated. -/
def loopClass (cfg : LoopCfg) (r : LoopRecord) (captureTime : Time) (d : Int) (e : Nat) (now : Time) : SampleClass :=
  let occupied := gateOccupied cfg d
  if (cfg.shortLimit : Int) ≤ d then .abnormal .loopShort
  else if occupied && decide (60 * cfg.maxPresence ≤ since now (r.occStart.getD now)) then .abnormal .loopStuck
  else if cfg.driftLimit ≤ e then .abnormal .loopDrift
  else if decide (0 < cfg.maxSilence) && !occupied &&
      decide (3600 * cfg.maxSilence ≤ since now (r.lastOccEnd.getD captureTime)) then .abnormal .loopSilent
  else .normal

/-- The baseline one sixty-fourth of the way toward 64 × C, the quotient truncated toward zero (R53). -/
def trackBaseline (baseline count : Nat) : Nat :=
  ((baseline : Int) + Int.tdiv (64 * (count : Int) - baseline) 64).toNat

/-- The class moves the baseline of an unoccupied gate (R53). -/
def tracksBaseline (cls : SampleClass) : Bool :=
  cls == .normal || cls == .abnormal .loopDrift || cls == .abnormal .loopSilent

/-- A gate processed whole (R42, R43, R47, R53). -/
def LoopRecord.gate (r : LoopRecord) (cfg : LoopCfg) (count : Nat) (now : Time) : LoopRecord × SampleClass :=
  if count < cfg.openFloor then
    let cls := SampleClass.abnormal .loopOpen
    ({ r.occupy false now with
        latestCount := some count, latestDeviation := none, latestDrift := none, latestClass := some cls }, cls)
  else
    match r.capture with
    | none =>
      let captured := decide (r.nominal = 0)
      ({ r with
          capture := some ⟨64 * count, now⟩, nominal := if captured then count else r.nominal,
          nominalCaptured := captured || r.nominalCaptured,
          latestCount := some count, latestDeviation := none, latestDrift := none, latestClass := some .neutral },
        .neutral)
    | some cap =>
      let cref := refCount cap.baseline
      let d := loopDeviation count cref
      let e := loopDrift cref r.nominal
      let r' := r.occupy (gateOccupied cfg d) now
      let cls := loopClass cfg r' cap.time d e now
      let baseline :=
        if tracksBaseline cls && !gateOccupied cfg d then trackBaseline cap.baseline count else cap.baseline
      ({ r' with
          capture := some ⟨baseline, cap.time⟩,
          latestCount := some count, latestDeviation := some d, latestDrift := some e, latestClass := some cls }, cls)

/-- The record at entry to RUN (R56). -/
def loopAtStart (cfg : LoopCfg) : LoopRecord := { nominal := cfg.nominal }

/-- The live values of the loop family (Table 11.6). -/
def LoopRecord.block (r : LoopRecord) (gateMs : Nat) : List Byte :=
  let presence := (if r.latestCount.isSome then 1#8 else 0) ||| (if r.capture.isSome then 2#8 else 0) |||
    (if r.latestDeviation.isSome then 4#8 else 0) ||| (if r.latestDrift.isSome then 8#8 else 0) |||
    (if r.occStart.isSome then 16#8 else 0) ||| (if r.lastOccEnd.isSome then 32#8 else 0) |||
    (if r.latestClass.isSome then 64#8 else 0)
  let cap := r.capture.getD ⟨0, 0⟩
  [presence, byteOf gateMs] ++ natHalfBytes (r.latestCount.getD 0) ++ timeBytes cap.time ++
    timeBytes (BitVec.ofNat 32 cap.baseline) ++ natHalfBytes (refCount cap.baseline) ++ natHalfBytes r.nominal ++
    [flagByte r.nominalCaptured] ++ halfBytes (BitVec.ofInt 16 (r.latestDeviation.getD 0)) ++
    natHalfBytes (r.latestDrift.getD 0) ++ [flagByte r.occStart.isSome] ++ timeBytes (r.occStart.getD 0) ++
    timeBytes (r.lastOccEnd.getD 0) ++ [classByte r.latestClass]

end Sys2Proof.Machine
end

