-- ==== Sys2Proof/Machine/Sense.lean ====
section
/-! DEFINITION. The field events of the sense channels and the cabinet inputs: sense ticks, gates, 16 Hz instants and
input point samples (chapters 2, 3, 5). -/

namespace Sys2Proof.Machine

/-- LAMP_SENSE_TICK (R23, R34): a LAMP channel in RUN measures, classifies and delivers its sample. -/
def State.lampTick (s : State) (c : Nat) (current : Nat) : State :=
  match s.cfg.channel c, s.channel c with
  | .lamp cfg, .lamp r =>
    let t := r.tick cfg (s.supplyLost cfg) (measuredCurrent current) s.now
    ((s.setChannel c (.lamp t.1)).applySample c t.2).settle
  | _, _ => s

def execLampSenseTick (c : Fin 16) (current : Nat) (s : State) : Host.Outcome State Fault Refusal :=
  .next (if s.mode = .run then s.lampTick c current else s)

/-- GATE_COMPLETION (R39, R43): a LOOP channel in RUN processes the gate whole and delivers its sample. -/
def State.loopGate (s : State) (c : Nat) (count : Nat) : State :=
  match s.cfg.channel c, s.channel c with
  | .loop cfg, .loop r =>
    let g := r.gate cfg (measuredCount count) s.now
    ((s.setChannel c (.loop g.1)).applySample c g.2).settle
  | _, _ => s

def execGateCompletion (c : Fin 16) (count : Nat) (s : State) : Host.Outcome State Fault Refusal :=
  .next (if s.mode = .run then s.loopGate c count else s)

/-- An input's record after a sample (R76, R77). -/
def InputRecord.sample (r : InputRecord) (filterOn level : Bool) : InputRecord where
  latest := level
  previous := level
  filtered := if filterOn then (if level = r.previous then level else r.filtered) else level

/-- An input's record replaced. -/
def State.setInput (s : State) (i : Nat) (r : InputRecord) : State := { s with inputs := tset s.inputs i r }

/-- The input numbers. -/
def inputNumbers : List Nat := List.range 8

/-- Every input sampled (R76). -/
def State.sampleInputs (s : State) (levels : BitVec 8) : State :=
  inputNumbers.foldl
    (fun s i => s.setInput i ((s.input i).sample (s.cfg.inputAt i).filter (levels.getLsbD i))) s

/-- The demand edge a lamp channel takes from the change of its demand input (R79, R26); `before` is the state from before
the instant. -/
def State.demandEdge (before s : State) (c : Nat) : State :=
  match s.cfg.channel c, s.channel c with
  | .lamp cfg, .lamp r =>
    match cfg.demand with
    | none => s
    | some i =>
      if (before.input i).filtered = (s.input i).filtered then s
      else s.setChannel c (.lamp (r.edge (s.inputActive i) s.now))
  | _, _ => s

/-- A 16 Hz instant after instant 0 (R76, R77, R79). -/
def State.sampleInstant (s : State) (levels : BitVec 8) : State :=
  channelNumbers.foldl (State.demandEdge s) (s.sampleInputs levels)

/-- INPUT_SAMPLE_INSTANT (R77). -/
def execInputSampleInstant (levels : BitVec 8) (s : State) : Host.Outcome State Fault Refusal :=
  .next (if s.mode = .run then s.sampleInstant levels else s)

/-- The sample an input's point takes at the 1 s tick: never neutral (R78). -/
def State.inputSample (s : State) (i : Nat) : SampleClass :=
  if s.inputActive i then .abnormal (roleKind (s.cfg.inputAt i).role) else .normal

/-- INPUT_POINT_SAMPLE (R78): an input of role MAINS, DOOR or GENERAL, in RUN. -/
def execInputPointSample (i : Fin 8) (s : State) : Host.Outcome State Fault Refusal :=
  if s.mode = .run then
    match (s.cfg.inputAt i).role with
    | .mains => .next (s.applySample (inputPoint i) (s.inputSample i)).settle
    | .door => .next (s.applySample (inputPoint i) (s.inputSample i)).settle
    | .general => .next (s.applySample (inputPoint i) (s.inputSample i)).settle
    | .demand => .next s
    | .unused => .next s
  else .next s

/-- The live values of the input family (Table 11.6). -/
def State.inputBlock (s : State) (i : Nat) : List Byte :=
  let cfg := s.cfg.inputAt i
  let r := s.input i
  let supplied := channelNumbers.filter fun c => (s.suppliedLamp i c).isSome
  let mask := supplied.foldl (fun h c => h ||| (1#16 <<< c)) (0#16)
  [0, byteOf i, roleCode cfg.role, flagByte cfg.activeHigh, flagByte cfg.filter, flagByte r.latest, flagByte r.previous,
    flagByte r.filtered, flagByte (s.inputActive i)] ++ halfBytes mask ++ [byteOf (s.affectedCount i)]

end Sys2Proof.Machine
end

