-- ==== Sys2Proof/Machine/Sign.lean ====
section
/-! DEFINITION. The Sign Line Controller: requests and replies, the poll cycle, transactions, SIGN STOP and SIGN START
(chapter 4). -/

namespace Sys2Proof.Machine

/-! ## The line (R57, R59 to R61) -/

/-- The check character of a request to a sign (R60). -/
def signCheck (a : Nat) : Nat := (256 - (a + 83) % 256) % 256

/-- The three characters of a request, each with its marker (Table 4.3). -/
def signRequest (a : Nat) : List (Bool × Byte) := [(true, byteOf a), (false, 0x53), (false, byteOf (signCheck a))]

/-- The SLC drives the line while it sends a request (R57). -/
def Slc.driving (c : Slc) : Bool := c.state == .sending

/-- What the SLC sends: the request to the current sign in SENDING (R65). -/
def Slc.line (c : Slc) : List (Bool × Byte) := if c.driving then signRequest (c.current.getD 0) else []

/-- The outcome of a transaction with a sign from its receive buffer (R61, R67, Table 4.6). -/
def transactionOutcome (a : Nat) (buf : List SignChar) : SignOutcome :=
  if buf.length = 0 then .noReply
  else if buf.length < 6 then .garbled .short
  else if buf.any (·.framing) then .garbled .framing
  else if buf.any (·.marker) then .garbled .marker
  else if (buf.map (·.value)).head? ≠ some (byteOf a) then .garbled .address
  else if byteSum (buf.map (·.value)) ≠ 0 then .garbled .check
  else .good

/-- The reply record of a good reply at a time (R61, R69). -/
def replyRecord (buf : List SignChar) (now : Time) : GoodReply :=
  let v (i : Nat) : Byte := ((buf[i]?).map (·.value)).getD 0
  { powerFail := (v 1).getLsbD 0, selfTest := (v 1).getLsbD 1, doorOpen := (v 1).getLsbD 2,
    pixels := (v 2).toNat * 256 + (v 3).toNat, message := v 4, time := now }

/-- The class of a good reply (R69, Table 4.7). -/
def replyClass (limit : Nat) (g : GoodReply) : SampleClass :=
  if g.powerFail then .abnormal .signPower
  else if g.selfTest then .abnormal .signReported
  else if limit < g.pixels then .abnormal .signPixelLoss
  else if g.doorOpen then .abnormal .signDoor
  else .normal

/-! ## The cycle (R63 to R65) -/

/-- The sign addresses in ascending order. -/
def signAddresses : List Nat := [1, 2, 3, 4, 5, 6, 7, 8]

/-- The present sign of lowest address above an address (R64). -/
def nextSign (cfg : Settings) (above : Nat) : Option Nat :=
  signAddresses.find? fun a => decide (above < a) && (cfg.signAt a).present

/-- Entry to SENDING for a sign (R65). The timeout start of the transaction before goes absent here (the rules do not say
when; the model's choice, log 31). -/
def Slc.send (c : Slc) (a : Nat) : Slc :=
  { c with state := .sending, current := some a, buffer := [], timeoutStart := none, guardStart := none }

/-- A cycle started with the present sign of lowest address; with none present there is nothing to poll. -/
def Slc.startCycle (c : Slc) (cfg : Settings) : Slc :=
  match nextSign cfg 0 with
  | none => c
  | some a => c.send a

/-- POLL_CYCLE_DUE (R63). -/
def execPollCycleDue (s : State) : Host.Outcome State Fault Refusal :=
  match s.slc.state with
  | .stopped => .next s
  | .waiting => .next { s with slc := s.slc.startCycle s.cfg }
  | .sending => .next { s with slc := { s.slc with owed := true } }
  | .awaiting => .next { s with slc := { s.slc with owed := true } }
  | .guarding => .next { s with slc := { s.slc with owed := true } }

/-- SIGN_REQUEST_END (R65): only in SENDING. -/
def execSignRequestEnd (s : State) : Host.Outcome State Fault Refusal :=
  if s.slc.state = .sending then
    .next { s with slc := { s.slc with state := .awaiting, timeoutStart := some s.clock } }
  else .next s

/-- GUARD at its end (R64). The timeout start goes absent with the current sign (log 31). -/
def Slc.afterGuard (c : Slc) (cfg : Settings) : Slc :=
  match nextSign cfg (c.current.getD 0) with
  | some a => c.send a
  | none =>
    if c.owed then { c with owed := false }.startCycle cfg
    else { c with state := .waiting, current := none, guardStart := none, timeoutStart := none }

/-- GUARD_EXPIRY (R64): only in GUARD. -/
def execGuardExpiry (s : State) : Host.Outcome State Fault Refusal :=
  if s.slc.state = .guarding then .next { s with slc := s.slc.afterGuard s.cfg } else .next s

/-! ## The end of a transaction (R66, R67, R69, R70) -/

/-- The class an outcome gives. -/
def outcomeClass (limit : Nat) (o : SignOutcome) (g : GoodReply) : SampleClass :=
  match o with
  | .good => replyClass limit g
  | .noReply => .abnormal .signComm
  | .garbled _ => .abnormal .signComm
  | .abandoned => .neutral

/-- The counter an outcome increments (R67). -/
def State.countOutcome (s : State) (o : SignOutcome) : State :=
  match o with
  | .good => s
  | .noReply => s.count .signTimeouts
  | .garbled _ => s.count .signGarbled
  | .abandoned => s

/-- A transaction ends in AWAITING: outcome, record, counter, GUARD, and the sample to the filter. -/
def State.endTransaction (s : State) : State :=
  let a := s.slc.current.getD 0
  let o := transactionOutcome a s.slc.buffer
  let g := replyRecord s.slc.buffer s.now
  let cls := outcomeClass (s.cfg.signAt a).pixelLimit o g
  let r := s.signRecord a
  let s := s.setSignRecord a
    { lastOutcome := some (o, s.now), latestClass := some cls, lastGood := if o = .good then some g else r.lastGood }
  let s := s.countOutcome o
  let s := { s with slc := { s.slc with state := .guarding, guardStart := some s.clock } }
  (s.applySample (signPoint a) cls).settle

/-- SIGN_CHARACTER_RECEIVED (R66, R68). -/
def execSignCharacterReceived (v : Byte) (marker framing : Bool) (s : State) : Host.Outcome State Fault Refusal :=
  if s.slc.state = .awaiting then
    let s := { s with slc := { s.slc with buffer := s.slc.buffer ++ [⟨v, marker, framing⟩] } }
    .next (if 6 ≤ s.slc.buffer.length then s.endTransaction else s)
  else .next s

/-- REPLY_TIMEOUT_EXPIRY (R66): only in AWAITING. -/
def execReplyTimeoutExpiry (s : State) : Host.Outcome State Fault Refusal :=
  if s.slc.state = .awaiting then .next s.endTransaction else .next s

/-! ## Console control (R71, R72) -/

/-- The controller stopped (R71). The timeout start goes absent with the current sign (log 31). -/
def Slc.stop (c : Slc) : Slc :=
  { c with state := .stopped, origin := none, owed := false, current := none, timeoutStart := none, guardStart := none }

/-- The transaction in flight abandoned: the outcome recorded, a neutral sample delivered, nothing counted (R71). -/
def State.abandonTransaction (s : State) : State :=
  let a := s.slc.current.getD 0
  let r := s.signRecord a
  (s.setSignRecord a { r with lastOutcome := some (.abandoned, s.now), latestClass := some .neutral }).applySample
    (signPoint a) .neutral

/-- SIGN STOP (R71). -/
def State.signStop (s : State) : State :=
  match s.slc.state with
  | .stopped => s
  | .waiting => { s with slc := s.slc.stop }
  | .guarding => { s with slc := s.slc.stop }
  | .sending => { s.abandonTransaction with slc := s.slc.stop }
  | .awaiting => { s.abandonTransaction with slc := s.slc.stop }

/-- SIGN START, in the order of R72. -/
def State.signStart (s : State) : State × Status :=
  if s.slc.state ≠ .stopped then (s, .wrongState)
  else if nextSign s.cfg 0 = none then (s, .notConfigured)
  else
    ({ s with slc := { s.slc with state := .waiting, origin := some s.clock, owed := false }.startCycle s.cfg }, .ok)

/-- The controller at entry to RUN: with a sign present the first cycle falls due at once (R74, R63). -/
def slcAtStart (cfg : Settings) : Slc :=
  if nextSign cfg 0 = none then ⟨.stopped, none, false, none, [], none, none⟩
  else Slc.startCycle ⟨.waiting, some ⟨0, 0⟩, false, none, [], none, none⟩ cfg

/-- The live values of the sign family (Table 11.6). -/
def State.signBlock (s : State) (a : Nat) : List Byte :=
  let r := s.signRecord a
  let presence := (if r.lastOutcome.isSome then 1#8 else 0) ||| (if r.latestClass.isSome then 2#8 else 0) |||
    (if r.lastGood.isSome then 4#8 else 0)
  let g := r.lastGood.getD ⟨false, false, false, 0, 0, 0⟩
  let outcome : List Byte := match r.lastOutcome with
    | none => [0, 0] ++ timeBytes 0
    | some (o, t) => [o.code, o.reasonCode] ++ timeBytes t
  [presence, byteOf a, s.slc.state.code, flagByte (s.slc.current == some a)] ++
    natHalfBytes (s.cfg.signAt a).pixelLimit ++ outcome ++ [classByte r.latestClass] ++
    [flagByte g.powerFail ||| (if g.selfTest then 2#8 else 0) ||| (if g.doorOpen then 4#8 else 0)] ++
    natHalfBytes g.pixels ++ [g.message] ++ timeBytes g.time

end Sys2Proof.Machine
end

