-- ==== Sys2Proof/Machine/Start.lean ====
section
/-! DEFINITION. The Configuration Loader and the station's starts: resets, the image read, the memory writes, entry to
RUN and to LISTEN (chapter 12, and what each chapter says after reset). -/

namespace Sys2Proof.Machine

/-! ## Resets (R183, R187) -/

/-- Every block in its reset state, in a station state with a memory operation: what lies outside the reset (the memory,
the CD pin), what the resets treat apart (the counters R180, START_WRITE_FAIL R184) and the model's own stay. -/
def State.cleared (s : State) (mode : StationMode) (op : Option MemOp) : State :=
  { State.reset with
    mode := mode, loader := ⟨op, none, none⟩, mem := s.mem, counters := s.counters, startWriteFail := s.startWriteFail,
    trunk := { State.reset.trunk with cd := s.trunk.cd }, free := s.free, pending := s.pending }

/-- Bytes of free value for `n` cells, from the `k`-th free value on (log 7). -/
def freeBytes (k n : Nat) : List Byte := (List.range n).map fun i => Config.freeByte (k + i)

/-- The last byte of a start record made to disagree where the four bytes would agree (R187, log 7). -/
def forceDisagreement (m : Memory) : Memory :=
  if m.half 506 = ~~~m.half 504 then m.write 507 (~~~(m.read 507)) else m

/-- A memory write cut by a power-on reset (R187): the bytes under way hold free values, and a start record that was cut
holds a count and a complement that disagree. -/
def State.cutWrite (s : State) : State :=
  match s.loader.op with
  | some (.startWrite _) =>
    { s with mem := forceDisagreement (Memory.writeBytes s.mem 504 (freeBytes s.free 4)), free := s.free + 4 }
  | some (.configWrite w) =>
    { s with mem := Memory.writeBytes s.mem w.offset (freeBytes s.free w.bytes.length), free := s.free + w.bytes.length }
  | some .imageRead => s
  | none => s

/-- The machine while the RESET pin is held: counters 0, START_WRITE_FAIL clear (R180, R184, R187). -/
def State.powerOn (s : State) : State :=
  { s.cutWrite.cleared .held none with counters := countersZero, startWriteFail := false }

/-- POWER_ON_RESET (R187): in any state. -/
def execPowerOnReset (s : State) : Host.Outcome State Fault Refusal := .next s.powerOn

/-- RESET_PIN_RELEASE (R187): LOADING begins, with the image read. -/
def execResetPinRelease (s : State) : Host.Outcome State Fault Refusal :=
  .next (if s.mode = .held then s.cleared .loading (some .imageRead) else s)

/-- RESTART_TAKES_EFFECT (R174, R187): after a RESTART has been answered, with no start-record write in progress. -/
def execRestartTakesEffect (s : State) : Host.Outcome State Fault Refusal :=
  match s.restart, s.loader.op with
  | .none, _ => .next s
  | .answered, some (.startWrite _) => .next s
  | .replyEnded, some (.startWrite _) => .next s
  | .answered, _ => .next (s.cleared .loading (some .imageRead))
  | .replyEnded, _ => .next (s.cleared .loading (some .imageRead))

/-! ## Entry to LISTEN and to RUN (R185, R186) -/

/-- Entry to LISTEN (R186): every block as after a reset, the default settings, station number 0. -/
def State.enterListen (s : State) (reason : ListenReason) : State :=
  { s.cleared .listen none with listenReason := some reason }

/-- A filter record at entry to RUN (R22). -/
def filterAtStart (cfg : Settings) (p : Nat) : FilterRecord :=
  { declared := if (cfg.family p).isSome then .normal else .unused }

/-- An input's record after instant 0 (R77, R83). -/
def inputAtStart (level : Bool) : InputRecord := ⟨level, level, level⟩

/-- The demand of a LAMP channel at entry to RUN: its input's level after instant 0, or ON for want of a source (R38). -/
def demandAtStart (cfg : Settings) (lamp : LampCfg) (levels : BitVec 8) : Bool :=
  match lamp.demand with
  | none => true
  | some i => levels.getLsbD i == (cfg.inputAt i).activeHigh

/-- A channel's record at entry to RUN (R38, R56). -/
def channelAtStart (cfg : Settings) (levels : BitVec 8) (c : Nat) : Channel :=
  match cfg.channel c with
  | .off => Channel.reset
  | .lamp l => .lamp (lampAtStart l (demandAtStart cfg l levels))
  | .loop l => .loop (loopAtStart l)

/-- The blocks as entry to RUN with a new start count sets them, before the first own ALIVE is queued (R12, R22, R38, R56,
R74, R83, R110, R122, R143, R161, R170, R180, R185). The count becomes the own start count and the newest of the own roll
record in this one event (R111, R184). -/
def State.runBlocks (s : State) (count : Half) (levels : BitVec 8) : State :=
  let base := s.cleared .run none
  { base with
    number := s.number, cfg := s.cfg, ownStart := count, nextChange := 1, baseChange := 1
    roll := rollSet base.roll s.number { newest := some count }
    filters := Vector.ofFn fun p => filterAtStart s.cfg p.val
    channels := Vector.ofFn fun c => channelAtStart s.cfg levels c.val
    inputs := Vector.ofFn fun i => inputAtStart (levels.getLsbD i.val)
    slc := slcAtStart s.cfg
    trunk := { base.trunk with enable := .enabled, access := .idle, lfsr := lfsrSeed s.number count }
    level := s.cfg.startLevel }

/-- The first own ALIVE (R117, R185). -/
def State.presence (s : State) : State := s.setCounty (s.toCounty.offerAlive s.ctx)

/-- Entry to RUN (R185) with the new start count (R184) and the levels of instant 0 (R76). -/
def State.enterRun (s : State) (count : Half) (levels : BitVec 8) : State := (s.runBlocks count levels).presence.settle

/-! ## The image read (R183, R184) -/

/-- A valid image taken as the working copy, and the start-record write begun with the new start count (R183, R184). Until
that write ends the new count stands in the write alone: the own start count and the own roll record take it together at
entry to RUN (R111, log 32). -/
def State.takeImage (s : State) : State :=
  { s with number := Memory.byteAt s.mem 3, cfg := settingsOf s.mem,
           loader := { s.loader with op := some (.startWrite (storedStart s.mem + 1)) } }

/-- IMAGE_READ_DONE (R183): only while the image read is in progress. -/
def execImageReadDone (acked : Bool) (s : State) : Host.Outcome State Fault Refusal :=
  if s.mode = .loading ∧ s.loader.op = some .imageRead then
    if acked then
      match imageFailure s.mem with
      | some reason => .next (s.enterListen reason)
      | none => .next s.takeImage
    else .next (s.enterListen .noMemory)
  else .next s

/-! ## The writes (R184, R188) -/

/-- Bytes of a write of which each may or may not have been written (R188, log 6): `k` counts the free values. -/
def maybeWritten (m : Memory) (x : Nat) (k : Nat) : List Byte → Memory
  | [] => m
  | b :: bs => maybeWritten (if Config.freeBit k then m.write x b else m) (x + 1) (k + 1) bs

/-- The memory after a write that ended: with every byte acknowledged and the poll acknowledged it holds the bytes. -/
def State.memoryAfter (s : State) (acked : Bool) (x : Nat) (bs : List Byte) : State :=
  if acked then { s with mem := Memory.writeBytes s.mem x bs }
  else { s with mem := maybeWritten s.mem x s.free bs, free := s.free + bs.length }

/-- The operation that begins when a write in RUN or LISTEN has ended: the pending start record or the configuration write
that waits, which of the two is free (R184, R188, log 8); none while a restart waits for this end (R174). -/
def State.nextOperation (s : State) : State :=
  let idle : Loader := { s.loader with op := none }
  if s.restart = .replyEnded then { s with loader := idle }
  else
    match s.loader.pendingStart, s.loader.waitingConfig with
    | none, none => { s with loader := idle }
    | some n, none => { s with loader := ⟨some (.startWrite n), none, none⟩ }
    | none, some w => { s with loader := ⟨some (.configWrite w), none, none⟩ }
    | some n, some w =>
      if Config.freeBit s.free then { s with loader := ⟨some (.startWrite n), none, some w⟩, free := s.free + 1 }
      else { s with loader := ⟨some (.configWrite w), some n, none⟩, free := s.free + 1 }

/-- A start-record write has ended (R184): at a start the station enters RUN with its count and the flag shows this write; in RUN a
failure latches the flag (log 9). -/
def State.startWriteEnds (s : State) (count : Half) (acked : Bool) (levels : BitVec 8) : State :=
  let s := s.memoryAfter acked 504 (startRecord count)
  if s.mode = .loading then State.enterRun { s with startWriteFail := !acked } count levels
  else State.nextOperation { s with startWriteFail := s.startWriteFail || !acked }

/-- A configuration write has ended (R188): the reply that waited for it is fixed and sent. -/
def State.configWriteEnds (s : State) (w : ConfigWrite) (acked : Bool) : State :=
  let s := s.memoryAfter acked w.offset w.bytes
  State.nextOperation
    { s with cp := { s.cp with reply := some ⟨0x13, if acked then .ok else .memoryFault, []⟩ } }

/-- START_RECORD_WRITE_DONE (R184): only while a start-record write is in progress. -/
def execStartRecordWriteDone (acked : Bool) (levels : BitVec 8) (s : State) : Host.Outcome State Fault Refusal :=
  match s.loader.op with
  | some (.startWrite count) => .next (s.startWriteEnds count acked levels)
  | some (.configWrite _) => .next s
  | some .imageRead => .next s
  | none => .next s

/-- CONFIG_WRITE_DONE (R188): only while a configuration write is in progress. -/
def execConfigWriteDone (acked : Bool) (s : State) : Host.Outcome State Fault Refusal :=
  match s.loader.op with
  | some (.configWrite w) => .next (s.configWriteEnds w acked)
  | some (.startWrite _) => .next s
  | some .imageRead => .next s
  | none => .next s

/-- MEMORY_POLL_TIMEOUT (R184, R188): the write in progress fails. -/
def execMemoryPollTimeout (levels : BitVec 8) (s : State) : Host.Outcome State Fault Refusal :=
  match s.loader.op with
  | some (.startWrite count) => .next (s.startWriteEnds count false levels)
  | some (.configWrite w) => .next (s.configWriteEnds w false)
  | some .imageRead => .next s
  | none => .next s

end Sys2Proof.Machine
end

