-- ==== Sys2Proof/Machine/Periodic.lean ====
section
/-! DEFINITION. The events of whole minutes: the view's minute scan, the roll's silence check, the own presence and the
refresh (chapters 6 to 8). -/

namespace Sys2Proof.Machine

/-- The minute scan with the attention line re-evaluated (R101, R102, R164). -/
def State.scan (s : State) : State := State.settle { s with view := scanView s.ctx s.view }

/-- MINUTE_SCAN (R101): in RUN and in LISTEN. -/
def execMinuteScan (s : State) : Host.Outcome State Fault Refusal := .next (if s.live then s.scan else s)

/-- The silence check (R119). -/
def State.silence (s : State) : State := (s.setCounty (s.toCounty.checkAllSilence s.ctx)).settle

/-- SILENCE_CHECK (R119): in RUN and in LISTEN. -/
def execSilenceCheck (s : State) : Host.Outcome State Fault Refusal := .next (if s.live then s.silence else s)

/-- PRESENCE_TIME (R117): in RUN. -/
def execPresenceTime (s : State) : Host.Outcome State Fault Refusal :=
  .next (if s.mode = .run then s.presence.settle else s)

/-- The refresh (R138). -/
def State.refreshTime (s : State) : State := (s.setCounty (s.toCounty.refreshOwn s.ctx)).settle

/-- REFRESH (R138): in RUN; with the refresh interval off no refresh is made. -/
def execRefresh (s : State) : Host.Outcome State Fault Refusal := .next (if s.mode = .run then s.refreshTime else s)

end Sys2Proof.Machine
end

