-- ==== Sys2Proof/Machine/Attention.lean ====
section
/-! DEFINITION. The Attention Unit's requests and local acknowledgement (R108, R165 to R167), with the wire form of an
entry (R176). -/

namespace Sys2Proof.Machine

/-! ## What a request answers -/

/-- The state a request leaves and the reply's status with its data; no answer while a WRITE CONFIG runs (R173, R188). -/
abbrev Served := State × Option (Status × List Byte)

/-- A request answered with a status and data. -/
def State.answer (s : State) (st : Status) (data : List Byte) : Served := (s, some (st, data))

/-! ## The wire form of an entry (R176, Table 11.4) -/

/-- The flags byte; UNSENT shows the point's mark on an own entry (R20). -/
def entryFlags (unsent : Vector Bool 32) (e : Entry) : Byte :=
  (if e.own then 1#8 else 0) ||| (if e.localOnly then 2#8 else 0) ||| (if e.stale then 4#8 else 0) |||
    (if e.endedByRestart then 8#8 else 0) ||| (if e.own && tget unsent e.point false then 16#8 else 0)

/-- The presence byte. -/
def entryPresence (e : Entry) : Byte :=
  (if e.stamp.isSome then 1#8 else 0) ||| (if e.ack.isSome then 2#8 else 0) ||| (if e.affected.isSome then 4#8 else 0) |||
    (if e.retireTime.isSome then 8#8 else 0) ||| (if e.lastSent.isSome then 16#8 else 0)

/-- The 29 bytes of an entry, each value as it stands at `now`; absent fields are zeros. -/
def entryBytes (now : Time) (unsent : Vector Bool 32) (e : Entry) : List Byte :=
  let st := e.stamp.getD ⟨0, 0⟩
  let ack := e.ack.getD ⟨0, 0⟩
  [byteOf e.origin, byteOf e.point] ++ halfBytes st.start ++ halfBytes st.change ++
    [byteOf e.kind.code, byteOf e.severity, byteOf e.state.code, entryFlags unsent e, entryPresence e,
      byteOf e.occurrences] ++ natHalfBytes (e.age now) ++ [byteOf ack.station, ack.operator,
      byteOf (e.affected.getD 0)] ++ timeBytes e.lastHeard ++ timeBytes (e.retireTime.getD 0) ++
    timeBytes (e.lastSent.getD 0)

/-- An entry of this station's view on the wire. -/
def State.wire (s : State) (e : Entry) : List Byte := entryBytes s.now s.unsent e

/-- The entry for a key on the wire; nothing where none is held. -/
def State.wireOf (s : State) (o p : Nat) : List Byte :=
  match findEntry s.view o p with
  | none => []
  | some e => s.wire e

/-! ## Local acknowledgement (R108) -/

/-- The ACK item of a local acknowledgement (R108, Table 8.3). -/
def ackItem (c : Ctx) (e : Entry) (st : Stamp) (operator : Byte) : QItem :=
  ⟨.ack ⟨e.origin, e.point, st, ⟨c.number, operator⟩, c.cfg.hopBudget⟩, e.severity, .own, 0, 0⟩

/-- The view with an entry acknowledged by this station. -/
def County.ackEntry (c : Ctx) (e : Entry) (operator : Byte) (k : County) : County :=
  { k with view := updateEntry k.view e.origin e.point fun e => e.acknowledged ⟨c.number, operator⟩ (c.cfg.retireAt c.now) }

/-- The ACK item offered unless the entry is LOCAL_ONLY. -/
def County.offerAck (c : Ctx) (e : Entry) (operator : Byte) (k : County) : County :=
  match e.stamp with
  | none => k
  | some st => if e.localOnly then k else k.offer c (ackItem c e st operator)

/-- Local acknowledgement of a held entry that carries no ack part (R108). -/
def State.localAck (s : State) (e : Entry) (operator : Byte) : State :=
  s.setCounty ((s.toCounty.ackEntry s.ctx e operator).offerAck s.ctx e operator)

/-- ACKNOWLEDGE, in the order of R108. -/
def State.serveAcknowledge (s : State) (o p : Nat) (st : Stamp) (operator : Byte) : Served :=
  if s.mode = .listen then s.answer .wrongState []
  else
    match findEntry s.view o p with
    | none => s.answer .noEntry []
    | some e =>
      if e.localOnly = false ∧ e.stamp ≠ some st then s.answer .staleStamp (s.wire e)
      else if e.ack.isSome then s.answer .ok (s.wire e)
      else
        let s := (s.localAck e operator).settle
        s.answer .ok (s.wireOf o p)

/-! ## Level and stack (R162 to R167) -/

/-- Level and depth as bytes. -/
def State.levelBytes (s : State) : List Byte := [byteOf s.level, byteOf s.stack.length]

/-- At most four levels are saved (R163). -/
def stackLimit : Nat := 4

/-- The candidate of TAKE: the first entry of the dispatch order in group 1 or 2 above the level (R165). -/
def State.candidate (s : State) : Option Entry := (dispatchOrder s.now s.view).find? fun e => e.calls s.level

/-- TAKE, in the order of R165. -/
def State.serveTake (s : State) (operator : Byte) : Served :=
  if s.mode = .listen then s.answer .wrongState []
  else
    match s.candidate with
    | none => s.answer .nonePending s.levelBytes
    | some e =>
      if stackLimit ≤ s.stack.length then s.answer .stackFull s.levelBytes
      else
        let s := s.localAck e operator
        let s := State.settle { s with stack := s.level :: s.stack, level := e.severity }
        s.answer .ok (s.levelBytes ++ s.wireOf e.origin e.point)

/-- FINISH (R166). -/
def State.serveFinish (s : State) : Served :=
  match s.stack with
  | [] => s.answer .stackEmpty []
  | l :: rest =>
    let s := State.settle { s with stack := rest, level := l }
    s.answer .ok s.levelBytes

/-- SET LEVEL (R167). -/
def State.serveSetLevel (s : State) (n : Byte) : Served :=
  match s.stack with
  | _ :: _ => s.answer .busy s.levelBytes
  | [] =>
    let s := State.settle { s with level := min 7 n.toNat }
    s.answer .ok s.levelBytes

end Sys2Proof.Machine
end

