-- ==== Sys2Proof/Machine/Requests.lean ====
section
/-! DEFINITION. The console requests that read the station or control its blocks (chapter 11, R140, R158 to R160, R71,
R72, R188). -/

namespace Sys2Proof.Machine

/-! ## STATUS and the view -/

/-- The data of STATUS (R177, Table 11.5). -/
def State.statusBytes (s : State) : List Byte :=
  [s.mode.code, listenReasonCode s.listenReason, byteOf s.number] ++ s.trunk.stateBytes ++ natHalfBytes s.view.length ++
    [byteOf (s.view.filter (·.own)).length] ++ natHalfBytes (totalCharge s.queue) ++ [flagByte s.condensed] ++
    s.levelBytes ++ [s.latchedFlags] ++ timeBytes s.now ++ halfBytes s.ownStart ++ halfBytes s.nextChange

/-- STATUS (R177). -/
def State.serveStatus (s : State) : Served := s.answer .ok s.statusBytes

/-- READ TOP(n): the first entries of the dispatch order (R107, Table 11.3). -/
def State.serveReadTop (s : State) (n : Byte) : Served :=
  let top := (dispatchOrder s.now s.view).take n.toNat
  s.answer .ok (byteOf top.length :: top.flatMap s.wire)

/-- READ NEXT(key): the entry of the least key above (R85). -/
def State.serveReadNext (s : State) (o p : Nat) : Served :=
  match nextEntry s.view o p with
  | none => s.answer .noEntry []
  | some e => s.answer .ok (s.wire e)

/-- READ ENTRY(key) (R84). -/
def State.serveReadEntry (s : State) (o p : Nat) : Served :=
  match findEntry s.view o p with
  | none => s.answer .noEntry []
  | some e => s.answer .ok (s.wire e)

/-! ## READ POINT, INHIBIT, RELEASE -/

/-- The live-value block of a point's family (R178, Table 11.6). -/
def State.liveBlock (s : State) (p : Nat) (f : Family) : List Byte :=
  match f with
  | .lamp =>
    match s.cfg.channel p, s.channel p with
    | .lamp cfg, .lamp r => r.block cfg (s.supplyLost cfg) s.now
    | _, _ => []
  | .loop =>
    match s.channel p with
    | .loop r => r.block (gateLength s.cfg.gateCode)
    | .off _ _ => []
    | .lamp _ => []
  | .sign => s.signBlock (p - 15)
  | .input => s.inputBlock (p - 24)

/-- The data of READ POINT: a point in use has a family and a block, an UNUSED one has neither (R178). -/
def State.pointBytes (s : State) (p : Nat) : List Byte :=
  let f := s.filter p
  let family := if f.declared = .unused then none else s.cfg.family p
  [byteOf p,
    match family with
    | none => 0
    | some x => x.code,
    f.declared.code, kindByte f.declared.kind, byteOf f.p, kindByte f.l, byteOf f.r, byteOf f.occurrences,
    flagByte (tget s.unsent p false)] ++
    match family with
    | none => []
    | some x => s.liveBlock p x

/-- READ POINT(p) (R21, R178). -/
def State.serveReadPoint (s : State) (p : Nat) : Served :=
  if 31 < p then s.answer .notLocal [] else s.answer .ok (s.pointBytes p)

/-- INHIBIT(p) (R15). -/
def State.serveInhibit (s : State) (p : Nat) : Served := (s.inhibit p).1.answer (s.inhibit p).2 []

/-- RELEASE(p) (R18). -/
def State.serveRelease (s : State) (p : Nat) : Served := (s.release p).1.answer (s.release p).2 []

/-! ## READ ROLL and READ COUNTERS -/

/-- The data of READ ROLL; the fields of an unknown station are zeros (R111, R175). -/
def rollBytes (station : Byte) (r : RollRecord) : List Byte :=
  match r.newest with
  | none => station :: 0 :: List.replicate 9 0
  | some n => [station, 1] ++ halfBytes n ++ timeBytes r.lastHeard ++ halfBytes r.heardDirect ++ [flagByte r.silent]

/-- READ ROLL(station) (R111). -/
def State.serveReadRoll (s : State) (station : Byte) : Served :=
  s.answer .ok (rollBytes station (rollGet s.roll station.toNat))

/-- The data of READ COUNTERS (R181, Table 11.3). -/
def counterBytes (cs : Vector Counter 16) : List Byte :=
  (cs.toList.flatMap fun c => halfBytes c.value) ++ halfBytes (rolloverFlags cs)

/-- READ COUNTERS(clear flag): the values from before, then the clear (R181). -/
def State.serveReadCounters (s : State) (clear : Byte) : Served :=
  let data := counterBytes s.counters
  if clear = 0 then s.answer .ok data
  else State.answer { s with counters := countersZero, viewOverflow := false } .ok data

/-! ## Trunk and signs -/

/-- TRUNK ENABLE, in the order of R159. -/
def State.serveTrunkEnable (s : State) : Served :=
  if s.mode = .listen then s.answer .wrongState []
  else
    match s.trunk.enable with
    | .draining => s.answer .busy []
    | .enabled => s.answer .ok s.trunk.stateBytes
    | .disabled =>
      let s := State.settle { s with trunk := { s.trunk with enable := .enabled, access := .idle } }
      s.answer .ok s.trunk.stateBytes

/-- TRUNK DISABLE (R158). -/
def State.serveTrunkDisable (s : State) : Served :=
  let s : State := { s with trunk := s.trunk.disabled }
  s.answer .ok s.trunk.stateBytes

/-- The queue flushed (R140). -/
def State.flush (s : State) : State :=
  s.setCounty { s.toCounty with toQueueSide := flushQueue s.ctx s.roll s.view s.toQueueSide }

/-- TRUNK FLUSH (R160). -/
def State.serveTrunkFlush (s : State) : Served :=
  if s.trunk.enable = .disabled then
    let s := s.flush
    s.answer .ok (s.trunk.enable.code :: natHalfBytes (totalCharge s.queue))
  else s.answer .wrongState []

/-- SIGN STOP (R71). -/
def State.serveSignStop (s : State) : Served :=
  let s := s.signStop
  s.answer .ok [s.slc.state.code]

/-- SIGN START (R72). -/
def State.serveSignStart (s : State) : Served :=
  let r := s.signStart
  r.1.answer r.2 (if r.2 = .ok then [r.1.slc.state.code] else [])

/-! ## WRITE CONFIG and RESTART -/

/-- The bytes reach past 503 or cross a page boundary (R188). -/
def outsidePage (offset n : Nat) : Bool :=
  decide (504 < offset + n) || decide (offset / 16 ≠ (offset + n - 1) / 16)

/-- WRITE CONFIG(offset, bytes) (R188): the write begins, or waits for the start-record write in progress; the reply
comes when it has ended. -/
def State.serveWriteConfig (s : State) (offset : Nat) (bytes : List Byte) : Served :=
  if outsidePage offset bytes.length then s.answer .badFormat []
  else
    match s.loader.op with
    | none => ({ s with loader := { s.loader with op := some (.configWrite ⟨offset, bytes⟩) } }, none)
    | some _ => ({ s with loader := { s.loader with waitingConfig := some ⟨offset, bytes⟩ } }, none)

/-- RESTART (R174). -/
def State.serveRestart (s : State) : Served := State.answer { s with restart := .answered } .ok []

/-- A request at its owning block (R173, step 4; Table 11.3). -/
def State.serve (s : State) (r : Request) : Served :=
  match r with
  | .status => s.serveStatus
  | .readTop n => s.serveReadTop n
  | .readNext o p => s.serveReadNext o.toNat p.toNat
  | .readEntry o p => s.serveReadEntry o.toNat p.toNat
  | .acknowledge o p st ch op => s.serveAcknowledge o.toNat p.toNat ⟨st, ch⟩ op
  | .take op => s.serveTake op
  | .finish => s.serveFinish
  | .setLevel n => s.serveSetLevel n
  | .readPoint p => s.serveReadPoint p.toNat
  | .inhibit p => s.serveInhibit p.toNat
  | .release p => s.serveRelease p.toNat
  | .readRoll st => s.serveReadRoll st
  | .readCounters c => s.serveReadCounters c
  | .trunkEnable => s.serveTrunkEnable
  | .trunkDisable => s.serveTrunkDisable
  | .trunkFlush => s.serveTrunkFlush
  | .signStop => s.serveSignStop
  | .signStart => s.serveSignStart
  | .writeConfig off bs => s.serveWriteConfig off.toNat bs
  | .restart => s.serveRestart

end Sys2Proof.Machine
end

