-- ==== Sys2Proof/Machine/Console.lean ====
section
/-! DEFINITION. The Console Port: assembling a request, taking it, the reply (chapter 11), and the meanings of the console
events and of the console requests. -/

namespace Sys2Proof.Machine

/-! ## Taking a request (R173) -/

/-- A reply fixed for a request that is not handed to a block: the port is REPLYING. -/
def State.turnAway (s : State) (code : Byte) (st : Status) : State :=
  { s with cp := ⟨.replying, [], none, some ⟨code, st, []⟩⟩ }

/-- A request taken: the port enters REPLYING and the owning block's status and effect are made in the same event. -/
def State.takeRequest (s : State) (r : Request) : State :=
  let a := State.serve { s with cp := ⟨.replying, [], none, none⟩ } r
  match a.2 with
  | none => a.1
  | some (st, data) => { a.1 with cp := { a.1.cp with reply := some ⟨r.code, st, data⟩ } }

/-- A completed request, from the length through the check, judged in the order of R173. -/
def State.completeRequest (s : State) (bytes : List Byte) : State :=
  match bytes with
  | _ :: code :: rest =>
    if byteSum bytes ≠ 0 then s.turnAway code .badCheck
    else
      match Request.parse code rest.dropLast with
      | .error st => s.turnAway code st
      | .ok r => s.takeRequest r
  | [_] => s
  | [] => s

/-! ## The assembler (R171, R172) -/

/-- The greatest length of a request. -/
def maxLength : Nat := 60

/-- A byte taken on the console line. -/
def State.consoleByte (s : State) (v : Byte) (framing : Bool) : State :=
  if s.live then
    match s.cp.port with
    | .hunting =>
      if v = 0xA5 ∧ framing = false then { s with cp := ⟨.assembling, [], some s.clock, none⟩ } else s
    | .assembling =>
      if framing then { s with cp := ⟨.hunting, [], none, none⟩ }
      else
        match s.cp.buffer with
        | [] =>
          if 1 ≤ v.toNat ∧ v.toNat ≤ maxLength then { s with cp := ⟨.assembling, [v], some s.clock, none⟩ }
          else s.turnAway 0x00 .badFormat
        | n :: taken =>
          let bytes := n :: taken ++ [v]
          if bytes.length = n.toNat + 2 then s.completeRequest bytes
          else { s with cp := ⟨.assembling, bytes, some s.clock, none⟩ }
    | .replying => s.count .consoleDiscards
  else s

/-- CONSOLE_BYTE_RECEIVED (R171 to R173). -/
def execConsoleByteReceived (v : Byte) (framing : Bool) (s : State) : Host.Outcome State Fault Refusal :=
  .next (s.consoleByte v framing)

/-- GAP_TIME_EXPIRY (R172): only in ASSEMBLING. -/
def execGapTimeExpiry (s : State) : Host.Outcome State Fault Refusal :=
  .next (if s.cp.port = .assembling then { s with cp := ⟨.hunting, [], none, none⟩ } else s)

/-- REPLY_END (R173, R174): only while a reply is being sent. After the reply to RESTART the port stays in REPLYING. -/
def execReplyEnd (s : State) : Host.Outcome State Fault Refusal :=
  if s.cp.port = .replying ∧ s.cp.reply.isSome = true then
    if s.restart = .answered then .next { s with cp := ⟨.replying, [], none, none⟩, restart := .replyEnded }
    else .next { s with cp := ⟨.hunting, [], none, none⟩ }
  else .next s

/-- The bytes of a reply on the line (Table 11.1). -/
def Reply.frame (r : Reply) : List Byte :=
  let front := byteOf (2 + r.data.length) :: r.code :: r.status.code :: r.data
  0x5A :: front ++ [checkOf front]

/-! ## The console requests as commands

A request command is its frame arriving whole: it is taken where the port hunts for it, and otherwise its bytes meet the
port one by one as any bytes do (log 10). -/

/-- The frame of a request arriving. -/
def State.receive (s : State) (r : Request) : State :=
  if s.live = true ∧ s.cp.port = .hunting ∧ r.inRange = true then s.takeRequest r
  else r.frame.foldl (fun s b => s.consoleByte b false) s

/-- STATUS (R177). -/
def execStatus (s : State) : Host.Outcome State Fault Refusal := .next (s.receive .status)

/-- READ_TOP (R107). -/
def execReadTop (n : Byte) (s : State) : Host.Outcome State Fault Refusal := .next (s.receive (.readTop n))

/-- READ_NEXT (R85). -/
def execReadNext (o p : Byte) (s : State) : Host.Outcome State Fault Refusal := .next (s.receive (.readNext o p))

/-- READ_ENTRY (R84). -/
def execReadEntry (o p : Byte) (s : State) : Host.Outcome State Fault Refusal := .next (s.receive (.readEntry o p))

/-- ACKNOWLEDGE (R108). -/
def execAcknowledge (o p : Byte) (start change : Half) (op : Byte) (s : State) : Host.Outcome State Fault Refusal :=
  .next (s.receive (.acknowledge o p start change op))

/-- TAKE (R165). -/
def execTake (op : Byte) (s : State) : Host.Outcome State Fault Refusal := .next (s.receive (.take op))

/-- FINISH (R166). -/
def execFinish (s : State) : Host.Outcome State Fault Refusal := .next (s.receive .finish)

/-- SET_LEVEL (R167). -/
def execSetLevel (n : Byte) (s : State) : Host.Outcome State Fault Refusal := .next (s.receive (.setLevel n))

/-- READ_POINT (R178). -/
def execReadPoint (p : Byte) (s : State) : Host.Outcome State Fault Refusal := .next (s.receive (.readPoint p))

/-- INHIBIT (R15). -/
def execInhibit (p : Byte) (s : State) : Host.Outcome State Fault Refusal := .next (s.receive (.inhibit p))

/-- RELEASE (R18). -/
def execRelease (p : Byte) (s : State) : Host.Outcome State Fault Refusal := .next (s.receive (.release p))

/-- READ_ROLL (R111). -/
def execReadRoll (station : Byte) (s : State) : Host.Outcome State Fault Refusal :=
  .next (s.receive (.readRoll station))

/-- READ_COUNTERS (R181). -/
def execReadCounters (clear : Byte) (s : State) : Host.Outcome State Fault Refusal :=
  .next (s.receive (.readCounters clear))

/-- TRUNK_ENABLE (R159). -/
def execTrunkEnable (s : State) : Host.Outcome State Fault Refusal := .next (s.receive .trunkEnable)

/-- TRUNK_DISABLE (R158). -/
def execTrunkDisable (s : State) : Host.Outcome State Fault Refusal := .next (s.receive .trunkDisable)

/-- TRUNK_FLUSH (R140, R160). -/
def execTrunkFlush (s : State) : Host.Outcome State Fault Refusal := .next (s.receive .trunkFlush)

/-- SIGN_STOP (R71). -/
def execSignStop (s : State) : Host.Outcome State Fault Refusal := .next (s.receive .signStop)

/-- SIGN_START (R72). -/
def execSignStart (s : State) : Host.Outcome State Fault Refusal := .next (s.receive .signStart)

/-- WRITE_CONFIG (R188). -/
def execWriteConfig (offset : Half) (bytes : List Byte) (s : State) : Host.Outcome State Fault Refusal :=
  .next (s.receive (.writeConfig offset bytes))

/-- RESTART (R174). -/
def execRestart (s : State) : Host.Outcome State Fault Refusal := .next (s.receive .restart)

end Sys2Proof.Machine
end

