-- ==== Sys2Proof/Machine/Dispatch.lean ====
section
/-! DEFINITION. One arm for each command: a direct call of its meaning. -/

namespace Sys2Proof.Machine

/-- The effect of a command on everything but the queue of commands. -/
def exec (i : Instr) (s : State) : Host.Outcome State Fault Refusal :=
  match i with
  | .powerOnReset => Sys2Proof.Machine.execPowerOnReset s
  | .imageReadDone a => Sys2Proof.Machine.execImageReadDone a s
  | .startRecordWriteDone a l => Sys2Proof.Machine.execStartRecordWriteDone a l s
  | .memoryPollTimeout l => Sys2Proof.Machine.execMemoryPollTimeout l s
  | .restartTakesEffect => Sys2Proof.Machine.execRestartTakesEffect s
  | .lampSenseTick c n => Sys2Proof.Machine.execLampSenseTick c n s
  | .inputPointSample n => Sys2Proof.Machine.execInputPointSample n s
  | .inputSampleInstant l => Sys2Proof.Machine.execInputSampleInstant l s
  | .gateCompletion c n => Sys2Proof.Machine.execGateCompletion c n s
  | .pollCycleDue => Sys2Proof.Machine.execPollCycleDue s
  | .signRequestEnd => Sys2Proof.Machine.execSignRequestEnd s
  | .signCharacterReceived v m f => Sys2Proof.Machine.execSignCharacterReceived v m f s
  | .replyTimeoutExpiry => Sys2Proof.Machine.execReplyTimeoutExpiry s
  | .guardExpiry => Sys2Proof.Machine.execGuardExpiry s
  | .trunkCharacterReceived v f => Sys2Proof.Machine.execTrunkCharacterReceived v f s
  | .cdActive => Sys2Proof.Machine.execCdActive s
  | .cdInactive => Sys2Proof.Machine.execCdInactive s
  | .slotExpiry => Sys2Proof.Machine.execSlotExpiry s
  | .keyupDelayExpiry => Sys2Proof.Machine.execKeyupDelayExpiry s
  | .sendComplete => Sys2Proof.Machine.execSendComplete s
  | .minuteScan => Sys2Proof.Machine.execMinuteScan s
  | .silenceCheck => Sys2Proof.Machine.execSilenceCheck s
  | .presenceTime => Sys2Proof.Machine.execPresenceTime s
  | .refresh => Sys2Proof.Machine.execRefresh s
  | .consoleByteReceived v f => Sys2Proof.Machine.execConsoleByteReceived v f s
  | .gapTimeExpiry => Sys2Proof.Machine.execGapTimeExpiry s
  | .replyEnd => Sys2Proof.Machine.execReplyEnd s
  | .status => Sys2Proof.Machine.execStatus s
  | .readTop n => Sys2Proof.Machine.execReadTop n s
  | .readNext o p => Sys2Proof.Machine.execReadNext o p s
  | .readEntry o p => Sys2Proof.Machine.execReadEntry o p s
  | .acknowledge o p st ch op => Sys2Proof.Machine.execAcknowledge o p st ch op s
  | .take op => Sys2Proof.Machine.execTake op s
  | .finish => Sys2Proof.Machine.execFinish s
  | .setLevel n => Sys2Proof.Machine.execSetLevel n s
  | .readPoint p => Sys2Proof.Machine.execReadPoint p s
  | .inhibit p => Sys2Proof.Machine.execInhibit p s
  | .release p => Sys2Proof.Machine.execRelease p s
  | .readRoll st => Sys2Proof.Machine.execReadRoll st s
  | .readCounters c => Sys2Proof.Machine.execReadCounters c s
  | .trunkEnable => Sys2Proof.Machine.execTrunkEnable s
  | .trunkDisable => Sys2Proof.Machine.execTrunkDisable s
  | .trunkFlush => Sys2Proof.Machine.execTrunkFlush s
  | .signStop => Sys2Proof.Machine.execSignStop s
  | .signStart => Sys2Proof.Machine.execSignStart s
  | .writeConfig off bs => Sys2Proof.Machine.execWriteConfig off bs s
  | .configWriteDone a => Sys2Proof.Machine.execConfigWriteDone a s
  | .restart => Sys2Proof.Machine.execRestart s
  | .resetPinRelease => Sys2Proof.Machine.execResetPinRelease s

end Sys2Proof.Machine
end

