-- ==== Sys2Proof/Machine/Step.lean ====
section
/-! DEFINITION. One step: the command at the front of the queue, or one unit of the timebase on an empty queue. -/

namespace Sys2Proof.Machine

/-- What a step on an empty queue does: time passes by one unit where the clock runs (R185; DESIGN CHOICE, log 1). -/
def State.idle (s : State) : State := if s.live then { s with clock := s.clock.tick } else s

/-- One step. -/
def step (s : State) : Host.Outcome State Fault Refusal :=
  match s.pending with
  | [] => .next s.idle
  | c :: rest => exec c { s with pending := rest }

/-- The command a table word spells, put at the front of the queue; no word of this table spells one. -/
def State.withFetchWord (s : State) (nbits w : Nat) : State :=
  match decodeTableWord nbits w with
  | none => s
  | some c => { s with pending := c :: s.pending }

end Sys2Proof.Machine
end

