-- ==== Sys2Proof/WellFormed.lean ====
section
/-! DEFINITION. Which commands are well formed: a console request whose parameters the line protocol admits
(Table 11.3), a measurement the front end can deliver (R23, R39). A command that is not well formed still has a meaning:
the request is answered BAD_FORMAT (R173), the measurement is clamped (R23, R39). -/

namespace Sys2Proof

/-- The operands lie in the ranges the spec gives them. -/
def Instr.wellFormed : Instr → Bool
  | .powerOnReset => true
  | .imageReadDone _ => true
  | .startRecordWriteDone _ _ => true
  | .memoryPollTimeout _ => true
  | .restartTakesEffect => true
  | .lampSenseTick _ current => decide (current ≤ 2047)
  | .inputPointSample _ => true
  | .inputSampleInstant _ => true
  | .gateCompletion _ count => decide (count ≤ 65535)
  | .pollCycleDue => true
  | .signRequestEnd => true
  | .signCharacterReceived _ _ _ => true
  | .replyTimeoutExpiry => true
  | .guardExpiry => true
  | .trunkCharacterReceived _ _ => true
  | .cdActive => true
  | .cdInactive => true
  | .slotExpiry => true
  | .keyupDelayExpiry => true
  | .sendComplete => true
  | .minuteScan => true
  | .silenceCheck => true
  | .presenceTime => true
  | .refresh => true
  | .consoleByteReceived _ _ => true
  | .gapTimeExpiry => true
  | .replyEnd => true
  | .status => true
  | .readTop n => decide (1 ≤ n.toNat ∧ n.toNat ≤ 4)
  | .readNext _ _ => true
  | .readEntry _ _ => true
  | .acknowledge _ _ _ _ _ => true
  | .take _ => true
  | .finish => true
  | .setLevel _ => true
  | .readPoint _ => true
  | .inhibit _ => true
  | .release _ => true
  | .readRoll station => decide (1 ≤ station.toNat ∧ station.toNat ≤ 240)
  | .readCounters _ => true
  | .trunkEnable => true
  | .trunkDisable => true
  | .trunkFlush => true
  | .signStop => true
  | .signStart => true
  | .writeConfig _ bytes => decide (1 ≤ bytes.length ∧ bytes.length ≤ 16)
  | .configWriteDone _ => true
  | .restart => true
  | .resetPinRelease => true

end Sys2Proof
end

