-- ==== Sys2Proof/Safety.lean ====
section
/-! DEFINITION. What holds in every state the part can be in, as decidable predicates, and when a timed command falls due
(`timely`). Statements name these. -/

namespace Sys2Proof.Machine

/-! ## Invariants -/

/-- The view is in key order, no key twice (R85). -/
def viewOrdered : List Entry → Bool
  | [] => true
  | [_] => true
  | a :: b :: v => keyLt a.origin a.point b.origin b.point && viewOrdered (b :: v)

/-- The view as R85 bounds it. -/
def State.viewOk (s : State) : Bool := decide (s.view.length ≤ viewCapacity) && viewOrdered s.view

/-- The queue stands in order of severity, the highest first (R125). -/
def queueOrdered : List QItem → Bool
  | [] => true
  | [_] => true
  | a :: b :: q => decide (b.severity ≤ a.severity) && queueOrdered (b :: q)

/-- The total charge lies within its limit (R123). -/
def State.chargeOk (s : State) : Bool := decide (totalCharge s.queue ≤ chargeLimit)

/-- The attention output shows its condition (R164). -/
def State.attentionOk (s : State) : Bool := s.attention == attentionCondition s.view s.level

/-- Saved levels, top first, strictly below the level they were saved under (R163). -/
def stackBelow : Nat → List Nat → Bool
  | _, [] => true
  | l, x :: xs => decide (x < l) && stackBelow x xs

/-- The attention stack as R163 bounds it. -/
def State.stackOk (s : State) : Bool := decide (s.stack.length ≤ stackLimit) && stackBelow s.level s.stack

/-- Levels lie in 0..7 and severities in 1..7 (R3, R162). -/
def State.levelsOk (s : State) : Bool :=
  decide (s.level ≤ 7) && s.stack.all (· ≤ 7) && decide (s.cfg.startLevel ≤ 7) &&
    s.cfg.severity.toList.all (fun n => decide (1 ≤ n ∧ n ≤ 7)) &&
    s.view.all fun e => decide (1 ≤ e.severity ∧ e.severity ≤ 7)

/-- The pairs of enable state and access state that occur (R153, R157 to R159, R161). -/
def Trunk.legal (t : Trunk) : Bool :=
  match t.enable, t.access with
  | .disabled, .off => true
  | .enabled, .idle => true
  | .enabled, .defer => true
  | .enabled, .keyup => true
  | .enabled, .send => true
  | .draining, .keyup => true
  | .draining, .send => true
  | .disabled, _ => false
  | .enabled, .off => false
  | .draining, _ => false

/-- A controller that is ENABLED and IDLE with items queued waits for a clear channel (R153). -/
def State.accessOk (s : State) : Bool :=
  s.trunk.legal && (!(s.trunk.access == .idle) || s.queue.isEmpty || s.trunk.busy)

/-- A slot runs exactly while the controller defers on a clear channel (R155). -/
def State.slotOk (s : State) : Bool := s.trunk.slot.isSome == (s.trunk.access == .defer && !s.trunk.busy)

/-- No key is covered by more than one queued item (R128). -/
def queueKeysOnce : List QItem → Bool
  | [] => true
  | x :: q =>
    (q.all fun y => y.item.origin != x.item.origin || x.item.points.all fun p => !(y.item.points.contains p)) &&
      queueKeysOnce q

/-- The queue as R125 and R128 keep it. -/
def State.queueOk (s : State) : Bool := queueOrdered s.queue && queueKeysOnce s.queue

/-- A filter record within its ranges (R5, Table 1.4). -/
def FilterRecord.inRange (f : FilterRecord) : Bool := decide (f.p ≤ 63 ∧ f.r ≤ 15 ∧ f.occurrences ≤ 255)

/-- Each family's off threshold lies below its on threshold (R6). -/
def thresholdsOk (c : Settings) : Bool :=
  decide (c.lamp.off < c.lamp.on ∧ c.loop.off < c.loop.on ∧ c.sign.off < c.sign.on ∧ c.input.off < c.input.on)

/-- One point's record: its ranges; UNUSED exactly where the point is not configured, and everywhere outside RUN, and
then as reset left it; in FAULT only with a persistence count above the off threshold (R1, R5, R7, R22). -/
def State.filterOk (s : State) (p : Nat) : Bool :=
  let f := s.filter p
  f.inRange &&
    match f.declared with
    | .unused => decide (f = ⟨.unused, 0, none, 0, 0⟩ ∧ (s.mode = .run → s.cfg.family p = none))
    | .normal => decide (s.mode = .run) && (s.cfg.family p).isSome
    | .fault _ => decide (s.mode = .run ∧ (s.cfg.paramsOf p).off < f.p) && (s.cfg.family p).isSome
    | .inhibited => decide (s.mode = .run) && (s.cfg.family p).isSome

/-- The filter records as R1, R5 and R7 bound them. -/
def State.filtersOk (s : State) : Bool := thresholdsOk s.cfg && (List.range 32).all s.filterOk

/-- A loop channel's baseline, once captured, lies from 64 times its open floor to 64 × 65535 (R53); outside RUN no
channel works, and a channel that does not work holds its records as reset left them (R23, R38, R56). -/
def State.baselineOk (s : State) (c : Nat) : Bool :=
  match s.channel c with
  | .off lamp loop => decide (Channel.off lamp loop = Channel.reset)
  | .lamp _ => decide (s.mode = .run)
  | .loop r =>
    decide (s.mode = .run) &&
      match s.cfg.channel c, r.capture with
      | .loop cfg, some cap => decide (64 * cfg.openFloor ≤ cap.baseline ∧ cap.baseline ≤ 64 * 65535)
      | .loop _, none => true
      | .off, _ => true
      | .lamp _, _ => true

/-- Every loop channel's baseline. -/
def State.baselinesOk (s : State) : Bool := (List.range 16).all s.baselineOk

/-- Own entries are those of this station's origin at points 0..31, and only RUN has them (R84, R186); the others are of
another origin, and at a point above 31 they are LOCAL_ONLY (R84, R151); outside RUN and LISTEN the view and the queue are
empty (R110, R143). -/
def State.ownersOk (s : State) : Bool :=
  (s.view.all fun e =>
    if e.own then decide (s.mode = .run ∧ e.origin = s.number ∧ e.point < 32) else decide (e.origin ≠ s.number) && (e.localOnly || decide (e.point < 32))) &&
    (s.live || (s.view.isEmpty && s.queue.isEmpty))

/-- A point in FAULT has its own entry ACTIVE with the declared kind, an INHIBITED point its own entry INHIBITED (R16). -/
def State.ownEntryOk (s : State) (p : Nat) : Bool :=
  match (s.filter p).declared, findEntry s.view s.number p with
  | .unused, _ => true
  | .normal, _ => true
  | .fault k, some e => e.own && e.state == .active && e.kind == k
  | .fault _, none => false
  | .inhibited, some e => e.own && e.state == .inhibited
  | .inhibited, none => false

/-- Every point's own entry, outside RUN every point UNUSED. -/
def State.ownEntriesOk (s : State) : Bool :=
  (List.range 32).all fun p => s.ownEntryOk p && (decide (s.mode = .run) || (s.filter p).declared == .unused)

/-- The roll knows the origin, and the start count is not older than the newest it holds (R115). -/
def State.startOk (s : State) (o : Nat) (start : Half) : Bool :=
  o == s.number ||
    match (rollGet s.roll o).newest with
    | none => false
    | some n => !countTakenNewer n start

/-- The origin of an entry that has a stamp is known to the roll, and an ACTIVE or INHIBITED one is not of an older start
count (R112, R115). -/
def State.entryStartOk (s : State) (e : Entry) : Bool :=
  e.localOnly || e.origin == s.number ||
    match e.stamp, (rollGet s.roll e.origin).newest with
    | some st, some n => !(e.state == .active || e.state == .inhibited) || !countTakenNewer n st.start
    | _, none => false
    | none, some _ => false

/-- No entry that is ACTIVE or INHIBITED and no queued item of another origin has a start count older than the newest the
roll holds for that origin (R115); outside RUN and LISTEN there are none. -/
def State.startsOk (s : State) : Bool :=
  s.view.all s.entryStartOk && (s.queue.all fun x => s.startOk x.item.origin x.item.start) &&
    (s.live || (s.view.isEmpty && s.queue.isEmpty))

/-! ## What statements are said with -/

/-- The Console Port hunts in RUN or LISTEN: the next request frame is taken (R171, R172). -/
def State.ready (s : State) : Bool := s.live && s.cp.port == .hunting

/-- The state with the port REPLYING and a reply fixed; nothing else changed (R173). -/
def State.replied (s : State) (code : Byte) (st : Status) (data : List Byte) : State :=
  { s with cp := ⟨.replying, [], none, some ⟨code, st, data⟩⟩ }

/-- Every block reset, LOADING begun; kept are the memory, the counters with their rollover flags, START_WRITE_FAIL, the
level of CD, and the model's own queue of commands and count of free values (R180, R184, R187). -/
def State.restarted (s : State) : State :=
  { State.reset with
    mem := s.mem, counters := s.counters, startWriteFail := s.startWriteFail,
    trunk := { State.reset.trunk with cd := s.trunk.cd }, free := s.free, pending := s.pending }

/-- The station in LISTEN with a reason (R186). -/
def State.listening (s : State) (reason : ListenReason) : State :=
  { s.restarted with mode := .listen, listenReason := some reason, loader := ⟨none, none, none⟩ }

/-- The console request a request spells, as a command. -/
def Request.command : Request → Instr
  | .status => .status
  | .readTop n => .readTop n
  | .readNext o p => .readNext o p
  | .readEntry o p => .readEntry o p
  | .acknowledge o p s c op => .acknowledge o p s c op
  | .take op => .take op
  | .finish => .finish
  | .setLevel n => .setLevel n
  | .readPoint p => .readPoint p
  | .inhibit p => .inhibit p
  | .release p => .release p
  | .readRoll st => .readRoll st
  | .readCounters c => .readCounters c
  | .trunkEnable => .trunkEnable
  | .trunkDisable => .trunkDisable
  | .trunkFlush => .trunkFlush
  | .signStop => .signStop
  | .signStart => .signStart
  | .writeConfig off bs => .writeConfig off bs
  | .restart => .restart

/-- A station number of a bulletin. -/
def stationNumber (n : Nat) : Bool := decide (1 ≤ n ∧ n ≤ 240)

/-- Every field lies inside the range Table 9.3 gives it, as in every item a station sends (R147). -/
def Item.sendable : Item → Bool
  | .fault f =>
    stationNumber f.origin && decide (f.point ≤ 31 ∧ f.kind ≠ .stationSilent ∧ 1 ≤ f.severity ∧ f.severity ≤ 7 ∧
      f.hop ≤ 7 ∧ f.occurrences ≤ 255) && (f.ack.all fun a => stationNumber a.station) && f.affected.all (· ≤ 16)
  | .ack a => stationNumber a.origin && decide (a.point ≤ 31 ∧ a.hop ≤ 7) && stationNumber a.ack.station
  | .compact n =>
    stationNumber n.origin && decide (n.kind ≠ .stationSilent ∧ 1 ≤ n.severity ∧ n.severity ≤ 7 ∧ n.hop ≤ 7 ∧
      2 ≤ n.points.length ∧ n.points.length ≤ 8) && n.points.all (fun x => decide (x.point ≤ 31)) &&
      noTwice (n.points.map (·.point))
  | .alive a => stationNumber a.origin && decide (a.hop ≤ 7)

/-- A sent item as its hearer takes it: ages as fixed at the time of sending, standing at the time of hearing (R139,
R86). -/
def Item.asHeard (sent heard : Time) : Item → Item
  | .fault f => .fault { f with age := ageAt sent f.age f.asOf, asOf := heard }
  | .ack a => .ack a
  | .compact n =>
    .compact { n with points := n.points.map fun x => { x with age := ageAt sent x.age x.asOf, asOf := heard } }
  | .alive a => .alive a

/-- The items a bulletin takes from the head of a queue: at most `n`, no further than a total of 236 item bytes (R156). -/
def bulletinPart : Nat → Nat → List QItem → List QItem
  | 0, _, _ => []
  | _ + 1, _, [] => []
  | n + 1, used, x :: q => if used + x.item.size ≤ 236 then x :: bulletinPart n (used + x.item.size) q else []

/-- A creation for a key of this station meets no full view (R104). -/
def State.roomFor (s : State) (p : Nat) : Bool :=
  decide (s.view.length < viewCapacity) || (findEntry s.view s.number p).isSome

/-- The next own stamp is taken without a start-count advance (R13). -/
def State.stampFree (s : State) : Bool := decide ((s.nextChange - s.baseChange).toNat ≤ 32767)

/-! ## When timed commands fall due -/

/-- Units from entry to RUN or LISTEN, up to the wrap of station time (R185). -/
def Instant.total (i : Instant) : Nat := i.sec.toNat * unitsPerSecond + i.sub

/-- The instant is a whole, non-zero multiple of an interval from entry to RUN or LISTEN. -/
def Instant.falls (i : Instant) (interval : Nat) : Bool := decide (0 < i.total ∧ i.total % interval = 0)

/-- An interval of `n` units that began at an instant ends now. -/
def endsNow (start : Option Instant) (n : Nat) (now : Instant) : Bool :=
  match start with
  | none => false
  | some i => decide (i.units now = n)

/-- Units of a trunk bit period (Table 9.2). -/
def trunkBit (rate : Nat) : Nat :=
  match rate with
  | 0 => 80
  | 1 => 40
  | 3 => 10
  | _ => 20

/-- The command may fall at this instant, as far as the state tells: the schedules of R23, R39, R63, R66, R68, R76, R78,
R101, R117, R119, R138, R155, R157, R172. Commands that the outside gives at any time are timely at any time. -/
def timely (i : Instr) (s : State) : Bool :=
  match i with
  | .lampSenseTick _ _ => s.clock.falls unitsPerSecond
  | .inputPointSample _ => s.clock.falls unitsPerSecond
  | .inputSampleInstant _ => s.clock.falls 6000
  | .gateCompletion _ _ => s.clock.falls (gateLength s.cfg.gateCode * unitsPerMs)
  | .pollCycleDue =>
    match s.slc.origin with
    | none => false
    | some o => decide (0 < o.units s.clock ∧ o.units s.clock % (s.cfg.pollInterval * unitsPerSecond : Nat) = 0)
  | .signRequestEnd => s.slc.state == .sending
  | .replyTimeoutExpiry => endsNow s.slc.timeoutStart (s.cfg.replyTimeout * unitsPerMs) s.clock
  | .guardExpiry => endsNow s.slc.guardStart (20 * unitsPerMs) s.clock
  | .slotExpiry => endsNow s.trunk.slot (s.cfg.slotTime * unitsPerMs) s.clock
  | .keyupDelayExpiry => s.trunk.access == .keyup && endsNow s.trunk.since (s.cfg.keyUpDelay * unitsPerMs) s.clock
  | .sendComplete =>
    s.trunk.access == .send && endsNow s.trunk.since (s.trunk.txd.length * 10 * trunkBit s.cfg.trunkRate) s.clock
  | .minuteScan => s.clock.falls (60 * unitsPerSecond)
  | .silenceCheck => s.clock.falls (60 * unitsPerSecond)
  | .presenceTime => s.clock.falls (60 * s.cfg.presence * unitsPerSecond)
  | .refresh => decide (0 < s.cfg.refresh) && s.clock.falls (60 * s.cfg.refresh * unitsPerSecond)
  | .gapTimeExpiry => endsNow s.cp.gapStart (100 * unitsPerMs) s.clock
  | .replyEnd => s.cp.reply.isSome
  | .restartTakesEffect => !(s.restart == .none)
  | .resetPinRelease => s.mode == .held
  | .imageReadDone _ => s.loader.op == some .imageRead
  | .startRecordWriteDone _ _ => true
  | .memoryPollTimeout _ => true
  | .configWriteDone _ => true
  | .powerOnReset => true
  | .signCharacterReceived _ _ _ => true
  | .trunkCharacterReceived _ _ => true
  | .cdActive => true
  | .cdInactive => true
  | .consoleByteReceived _ _ => true
  | .status => true
  | .readTop _ => true
  | .readNext _ _ => true
  | .readEntry _ _ => true
  | .acknowledge _ _ _ _ _ => true
  | .take _ => true
  | .finish => true
  | .setLevel _ => true
  | .readPoint _ => true
  | .inhibit _ => true
  | .release _ => true
  | .readRoll _ => true
  | .readCounters _ => true
  | .trunkEnable => true
  | .trunkDisable => true
  | .trunkFlush => true
  | .signStop => true
  | .signStart => true
  | .writeConfig _ _ => true
  | .restart => true

end Sys2Proof.Machine
end

