-- ==== Sys2Proof/Certificates/Slice0/Obligations.lean ====
section
/-! DEFINITION. The statements for the provers, by the spec's chapters. Each says in its docstring which rules it stands
on, and which log entry a clause rests on where the model chose. -/

section

open Sys2Proof Sys2Proof.Machine

/-! ## Steps, commands, frames -/

/-- A step with a command at the front of the queue is `exec` of that command on the state with the queue's rest. -/
def Obligations.StepRunsTheFrontCommand : Prop :=
  ∀ (c : Instr) (rest : List Instr) (s : State),
    step { s with pending := c :: rest } = exec c { s with pending := rest }

/-- Every command answers a next state in every state and leaves the queue of commands as it was. A command whose event
cannot occur in a state changes nothing (log 26): the field events and the own offers outside RUN, a sense channel's event
on a channel of another kind, a controller's, a loader's or a minute's event outside the state that waits for it. On an
empty queue a step is one unit of 1/96000 s of the timebase where the clock runs, and nothing where it does not (R185; the
unit and its place in the step are the model's choice, log 1). -/
def Obligations.StepsNeverStop : Prop :=
  (∀ (i : Instr) (s : State), ∃ t, exec i s = .next t ∧ t.pending = s.pending) ∧
  (∀ (s : State) (i : Instr),
    (s.mode ≠ .run → ((∃ c n, i = .lampSenseTick c n) ∨ (∃ c n, i = .gateCompletion c n) ∨ (∃ n, i = .inputPointSample n) ∨
      (∃ l, i = .inputSampleInstant l) ∨ i = .presenceTime ∨ i = .refresh) → exec i s = .next s) ∧
    (∀ c n, i = .lampSenseTick c n → (∀ l, s.cfg.channel c ≠ .lamp l) → exec i s = .next s) ∧
    (∀ c n, i = .gateCompletion c n → (∀ l, s.cfg.channel c ≠ .loop l) → exec i s = .next s) ∧
    (i = .signRequestEnd → s.slc.state ≠ .sending → exec i s = .next s) ∧
    (i = .guardExpiry → s.slc.state ≠ .guarding → exec i s = .next s) ∧
    (i = .slotExpiry → s.trunk.access ≠ .defer ∨ s.trunk.slot = none → exec i s = .next s) ∧
    (i = .minuteScan ∨ i = .silenceCheck → s.live = false → exec i s = .next s) ∧
    (∀ a, i = .imageReadDone a → s.mode ≠ .loading ∨ s.loader.op ≠ some .imageRead → exec i s = .next s) ∧
    (∀ a l, i = .startRecordWriteDone a l → (∀ n, s.loader.op ≠ some (.startWrite n)) → exec i s = .next s) ∧
    (∀ a, i = .configWriteDone a → (∀ w, s.loader.op ≠ some (.configWrite w)) → exec i s = .next s) ∧
    (∀ l, i = .memoryPollTimeout l → s.loader.op = none ∨ s.loader.op = some .imageRead → exec i s = .next s)) ∧
  (∀ s : State, s.pending = [] →
    (s.mode = .run ∨ s.mode = .listen →
      step s = .next { s with clock :=
        if s.clock.sub + 1 < 96000 then ⟨s.clock.sec, s.clock.sub + 1⟩ else ⟨s.clock.sec + 1, 0⟩ }) ∧
    (s.mode = .held ∨ s.mode = .loading → step s = .next s))

/-- What only few commands change: the memory changes at a power-on reset and at the end of a write; the station number
and the settings at resets and at the end of the image read; the station state and the clock at those and at the end of a
start-record write (R182 to R188). Every step keeps the memory in its canonical form. -/
def Obligations.MemoryChangesAtWritesAlone : Prop :=
  (∀ (i : Instr) (s t : State), exec i s = .next t →
     (i ≠ .powerOnReset → (∀ a l, i ≠ .startRecordWriteDone a l) → (∀ l, i ≠ .memoryPollTimeout l) →
       (∀ a, i ≠ .configWriteDone a) → t.mem = s.mem) ∧
     (i ≠ .powerOnReset → i ≠ .resetPinRelease → i ≠ .restartTakesEffect → (∀ a, i ≠ .imageReadDone a) →
       t.cfg = s.cfg ∧ t.number = s.number ∧
         ((∀ a l, i ≠ .startRecordWriteDone a l) → (∀ l, i ≠ .memoryPollTimeout l) →
           t.mode = s.mode ∧ t.listenReason = s.listenReason ∧ t.clock = s.clock))) ∧
  (∀ s t : State, Memory.wf s.mem = true → step s = .next t → Memory.wf t.mem = true)

/-- After power-on reset: LOADING with the image read in progress, station time 0, the view, the queue and the stack
empty, the counters 0 with their rollover flags clear, the latched flags clear, every point UNUSED, the roll without a
known station, every sense channel with demand OFF, uncaptured and its other fields absent or 0, KEY and the attention
output released, the sign line not driven (R38, R56, R180, R183, R187; the working reference and nominal count of a channel
that does not work are log 35); and every invariant of these statements holds. -/
def Obligations.ResetLeavesLoadingAndInvariants : Prop :=
  (State.reset.mode = .loading ∧ State.reset.loader = ⟨some .imageRead, none, none⟩ ∧ State.reset.clock = ⟨0, 0⟩ ∧
     State.reset.view = [] ∧ State.reset.queue = [] ∧ State.reset.stack = [] ∧ State.reset.pending = [] ∧
     State.reset.counters = .replicate 16 ⟨0, false⟩ ∧ State.reset.viewOverflow = false ∧
     State.reset.duplicateStation = false ∧ State.reset.stampConflict = false ∧ State.reset.startWriteFail = false ∧
     (∀ p, State.reset.filter p = ⟨.unused, 0, none, 0, 0⟩ ∧ tget State.reset.unsent p false = false) ∧
     (∀ o, (rollGet State.reset.roll o).newest = none) ∧
     (∀ c, State.reset.channel c = .off ⟨none, false, none, none, 0, 0, 0, false, none, none⟩
       ⟨none, 0, false, none, none, none, none, none, none⟩) ∧
     State.reset.attention = false ∧
     State.reset.trunk.key = false ∧ State.reset.trunk.txd = [] ∧ State.reset.slc.driving = false) ∧
  (Memory.wf State.reset.mem = true ∧ State.reset.viewOk = true ∧ State.reset.chargeOk = true ∧
     State.reset.queueOk = true ∧ State.reset.attentionOk = true ∧ State.reset.stackOk = true ∧
     State.reset.levelsOk = true ∧ State.reset.accessOk = true ∧ State.reset.slotOk = true ∧
     State.reset.filtersOk = true ∧ State.reset.baselinesOk = true ∧ State.reset.ownersOk = true ∧
     State.reset.ownEntriesOk = true ∧ State.reset.startsOk = true)

/-! ## Resets and starts (chapter 12) -/

/-- POWER_ON_RESET in any state: every block reset, counters and START_WRITE_FAIL cleared, no image read before the pin is
released; a write in progress is cut: the start record then holds a count and a complement that disagree, a configuration
write leaves bytes outside its own as they were (R180, R184, R187). RESET_PIN_RELEASE begins LOADING with the image read;
RESTART_TAKES_EFFECT does, once a RESTART has been answered and no start-record write is in progress; both reset every block
and keep the memory, the counters with their rollover flags and START_WRITE_FAIL (R174, R180, R184, R187). The model's
choices in it: the held pin as a mode HELD is log 28, the values of the registers before the image is read log 5, the level
of CD kept through a reset log 29, RESTART_TAKES_EFFECT working already once the RESTART is answered log 18, the bytes of a
cut write log 7. -/
def Obligations.ResetsClearTheBlocks : Prop :=
  (∀ s : State, ∃ t, exec .powerOnReset s = .next t ∧
     t = { s.restarted with
           mode := .held, loader := ⟨none, none, none⟩, mem := t.mem, free := t.free,
           counters := .replicate 16 ⟨0, false⟩, startWriteFail := false } ∧
     (s.loader.op = none ∨ s.loader.op = some .imageRead → t.mem = s.mem) ∧
     (∀ n, s.loader.op = some (.startWrite n) → Memory.wf s.mem = true →
       Memory.half t.mem 506 ≠ ~~~(Memory.half t.mem 504) ∧
       ∀ x, x < 504 ∨ 508 ≤ x → Memory.read t.mem x = Memory.read s.mem x) ∧
     (∀ w, s.loader.op = some (.configWrite w) → Memory.wf s.mem = true →
       ∀ x, x < w.offset ∨ w.offset + w.bytes.length ≤ x → Memory.read t.mem x = Memory.read s.mem x)) ∧
  (∀ s : State,
     (s.mode = .held → exec .resetPinRelease s = .next s.restarted) ∧
     (s.mode ≠ .held → exec .resetPinRelease s = .next s) ∧
     (s.restart ≠ .none → (∀ n, s.loader.op ≠ some (.startWrite n)) → exec .restartTakesEffect s = .next s.restarted) ∧
     (s.restart ≠ .none → (∃ n, s.loader.op = some (.startWrite n)) → exec .restartTakesEffect s = .next s) ∧
     (s.restart = .none → exec .restartTakesEffect s = .next s))

/-- IMAGE_READ_DONE in LOADING: a memory that does not acknowledge gives LISTEN with NO_MEMORY; otherwise the checks of
R183 in their order; a valid image gives the station number and the settings, and the write of the new start count
begins (R183, R184, R186). That the own start count takes the new count at entry to RUN alone is the model's reading (log 32);
the registers of LISTEN that R186 leaves open are the model's choice (log 5), the level of CD kept its reading (log 29). -/
def Obligations.ImageReadDecidesTheStart : Prop :=
  ∀ s : State, s.mode = .loading → s.loader.op = some .imageRead →
    exec (.imageReadDone false) s = .next (s.listening .noMemory) ∧
    (Memory.readBytes s.mem 0 3 ≠ [0x4D, 0x46, 0x01] →
      exec (.imageReadDone true) s = .next (s.listening .badSignature)) ∧
    (Memory.readBytes s.mem 0 3 = [0x4D, 0x46, 0x01] →
      crc (Memory.readBytes s.mem 0 502) ≠ Memory.half s.mem 502 →
      exec (.imageReadDone true) s = .next (s.listening .badImageCrc)) ∧
    (Memory.readBytes s.mem 0 3 = [0x4D, 0x46, 0x01] →
      crc (Memory.readBytes s.mem 0 502) = Memory.half s.mem 502 →
      (Memory.read s.mem 3).toNat = 0 ∨ 240 < (Memory.read s.mem 3).toNat →
      exec (.imageReadDone true) s = .next (s.listening .badStation)) ∧
    (Memory.readBytes s.mem 0 3 = [0x4D, 0x46, 0x01] →
      crc (Memory.readBytes s.mem 0 502) = Memory.half s.mem 502 →
      1 ≤ (Memory.read s.mem 3).toNat → (Memory.read s.mem 3).toNat ≤ 240 →
      let stored := if Memory.half s.mem 506 = ~~~(Memory.half s.mem 504) then Memory.half s.mem 504 else 0
      exec (.imageReadDone true) s = .next { s with
        number := (Memory.read s.mem 3).toNat, cfg := settingsOf s.mem,
        loader := { s.loader with op := some (.startWrite (stored + 1)) } })

/-- The settings of any image are its bytes as Table 12.1 lays them out, each kept where it lies in its range and clamped
where it does not (R3, R6, R24, R25, R40, R58, R75, R100, R117, R119, R141, R144, R162, R182), so that every setting lies in
its range. On the two wires the loader sends the device address 50h with its direction, the memory address high byte first,
and the data bytes: one transfer of 512 bytes from 0000h with a repeated START for the image, a page write at 504 for a start
record, and at its offset for a configuration write; the poll is the device address with write (R182 to R184, R188), closed by
no STOP, which is the model's choice (log 36). -/
def Obligations.ClampedSettingsInRange : Prop :=
  (∀ m : Memory,
    let c := settingsOf m
    let b := fun x => (Memory.read m x).toNat
    let w := fun x => b x + 256 * b (x + 1)
    let lim := fun lo hi x : Nat => if x < lo then lo else if hi < x then hi else x
    let under := fun limit x : Nat => if limit ≤ x then limit - 1 else x
    let named := fun (x : Nat) (r : Role) => if x ≤ 7 ∧ (c.inputAt x).role = r then some x else none
    c.trunkRate = (if b 4 ≤ 3 then b 4 else 2) ∧ c.slotTime = lim 5 100 (b 5) ∧ c.keyUpDelay = lim 0 250 (b 6) ∧
    c.hopBudget = lim 0 7 (b 7) ∧ c.suppression = lim 1 4 (b 8) ∧
    c.refresh = (if b 9 = 0 then 0 else lim 5 120 (b 9)) ∧ c.presence = lim 1 60 (b 10) ∧
    c.silence = (if b 11 = 0 then 0 else lim 10 240 (b 11)) ∧ c.retireHold = lim 10 240 (b 12) ∧
    c.holdoff = lim 10 600 (w 13) ∧ c.condenseOn = lim 1 32 (b 15) ∧ c.condenseOff = under c.condenseOn (b 16) ∧
    c.condenseFloor = lim 1 7 (b 17) ∧ c.startLevel = lim 0 7 (b 18) ∧ c.gateCode = (if b 19 ≤ 2 then b 19 else 1) ∧
    c.signRate = (if b 314 ≤ 4 then b 314 else 3) ∧ c.pollInterval = lim 2 60 (b 315) ∧
    c.replyTimeout = lim 50 1000 (w 316) ∧
    (∀ k : Kind, c.severityOf k = lim 1 7 (b (19 + k.code))) ∧
    (∀ f x, (f, x) ∈ [(Family.lamp, 38), (.loop, 43), (.sign, 48), (.input, 53)] →
      c.params f = ⟨lim 1 15 (b x), lim 1 15 (b (x + 1)), lim 1 63 (b (x + 2)), under (lim 1 63 (b (x + 2))) (b (x + 3)),
        lim 1 15 (b (x + 4))⟩) ∧
    (∀ i, i < 16 →
      let x := 58 + 16 * i
      (b x = 1 →
        let low := lim 151 1000 (w (x + 7))
        c.channel i = .lamp ⟨lim 0 2046 (w (x + 1)), lim 0 600 (w (x + 3)), lim 1001 4000 (w (x + 5)), low,
          under low (max 1 (w (x + 9))), lim 1 2046 (w (x + 11)), named (b (x + 13)) .demand, named (b (x + 14)) .mains⟩) ∧
      (b x = 2 →
        let detect := lim 1 1000 (w (x + 5))
        c.channel i = .loop ⟨w (x + 1), max 1 (w (x + 3)), detect, lim (detect + 1) 3200 (w (x + 7)), lim 10 500 (w (x + 9)),
          max 1 (b (x + 11)), lim 0 72 (b (x + 12))⟩) ∧
      (b x ≠ 1 → b x ≠ 2 → c.channel i = .off)) ∧
    (∀ a, 1 ≤ a → a ≤ 8 → c.signAt a = ⟨decide (b (315 + 3 * a) ≠ 0), w (316 + 3 * a)⟩) ∧
    (∀ i, i < 8 → c.inputAt i = ⟨match b (342 + 3 * i) with
        | 1 => .demand
        | 2 => .mains
        | 3 => .door
        | 4 => .general
        | _ => .unused, decide (b (343 + 3 * i) ≠ 0), decide (b (344 + 3 * i) ≠ 0)⟩) ∧
    (∀ f : Family, 1 ≤ (c.params f).up ∧ (c.params f).up ≤ 15 ∧ 1 ≤ (c.params f).down ∧ (c.params f).down ≤ 15 ∧
      1 ≤ (c.params f).on ∧ (c.params f).on ≤ 63 ∧ (c.params f).off < (c.params f).on ∧
      1 ≤ (c.params f).confirm ∧ (c.params f).confirm ≤ 15) ∧
    (∀ k : Kind, 1 ≤ c.severityOf k ∧ c.severityOf k ≤ 7) ∧
    (∀ i l, c.channel i = .lamp l →
      l.reference ≤ 2046 ∧ l.warmUp ≤ 600 ∧ 1 ≤ l.outLimit ∧ l.outLimit < l.normalLow ∧ 151 ≤ l.normalLow ∧
        l.normalLow ≤ 1000 ∧ 1000 < l.overLimit ∧ l.overLimit ≤ 4000 ∧ 1 ≤ l.dayThreshold ∧ l.dayThreshold ≤ 2046 ∧
        (∀ n, l.demand = some n → n ≤ 7 ∧ (c.inputAt n).role = .demand) ∧
        (∀ n, l.supply = some n → n ≤ 7 ∧ (c.inputAt n).role = .mains)) ∧
    (∀ i l, c.channel i = .loop l →
      l.nominal ≤ 65535 ∧ 1 ≤ l.openFloor ∧ l.openFloor ≤ 65535 ∧ 1 ≤ l.detect ∧ l.detect ≤ 1000 ∧
        l.detect < l.shortLimit ∧ l.shortLimit ≤ 3200 ∧ 10 ≤ l.driftLimit ∧ l.driftLimit ≤ 500 ∧ 1 ≤ l.maxPresence ∧
        l.maxPresence ≤ 255 ∧ l.maxSilence ≤ 72) ∧
    c.trunkRate ≤ 3 ∧ 5 ≤ c.slotTime ∧ c.slotTime ≤ 100 ∧ c.keyUpDelay ≤ 250 ∧ c.hopBudget ≤ 7 ∧ 1 ≤ c.suppression ∧
    c.suppression ≤ 4 ∧ (c.refresh = 0 ∨ 5 ≤ c.refresh ∧ c.refresh ≤ 120) ∧ 1 ≤ c.presence ∧ c.presence ≤ 60 ∧
    (c.silence = 0 ∨ 10 ≤ c.silence ∧ c.silence ≤ 240) ∧ 10 ≤ c.retireHold ∧ c.retireHold ≤ 240 ∧ 10 ≤ c.holdoff ∧
    c.holdoff ≤ 600 ∧ 1 ≤ c.condenseOn ∧ c.condenseOn ≤ 32 ∧ c.condenseOff < c.condenseOn ∧ 1 ≤ c.condenseFloor ∧
    c.condenseFloor ≤ 7 ∧ c.startLevel ≤ 7 ∧ c.gateCode ≤ 2 ∧ c.signRate ≤ 4 ∧ 2 ≤ c.pollInterval ∧ c.pollInterval ≤ 60 ∧
    50 ≤ c.replyTimeout ∧ c.replyTimeout ≤ 1000) ∧
  (let opening := fun x : Nat =>
     [WireEvent.start, .device 0x50 false, .send (BitVec.ofNat 8 (x / 256)), .send (BitVec.ofNat 8 (x % 256))]
   MemOp.imageRead.wires = opening 0 ++ [.start, .device 0x50 true, .take 512, .stop] ∧
   (∀ n : Half, (MemOp.startWrite n).wires =
     opening 504 ++ (halfBytes n ++ halfBytes (~~~n)).map WireEvent.send ++ [.stop]) ∧
   (∀ w : ConfigWrite, (MemOp.configWrite w).wires = opening w.offset ++ w.bytes.map WireEvent.send ++ [.stop]) ∧
   wirePoll = [.start, .device 0x50 false])

/-- The end of the start-record write in LOADING, acknowledged or not, by the poll's time-out too, is entry to RUN: station
time 0, N and Bn 1, the view empty, the queue holding the own ALIVE alone, which opens an access where CD is inactive, the
roll knowing this station alone, with the count written as the own start count and the newest of the own roll record, every
configured point NORMAL without evidence, the inputs at the levels of instant 0, no demand edge, the sign controller in its
first cycle, the level at the start level and no level saved; START_WRITE_FAIL shows this write (R12, R22, R38, R56, R74, R76,
R83, R110, R111, R117, R122, R143, R154, R161, R170, R184, R185). The model's choices in it: the levels of instant 0 as an
operand are log 24, the level of CD at entry is log 29, the moment the own start count takes the count is log 32. -/
def Obligations.StartWriteEntersRun : Prop :=
  ∀ (s : State) (n : Half) (acked : Bool) (levels : BitVec 8),
    s.mode = .loading → s.loader.op = some (.startWrite n) → 1 ≤ s.number → s.number ≤ 240 → 1 ≤ s.cfg.condenseOn →
    ∃ t, exec (.startRecordWriteDone acked levels) s = .next t ∧
      (acked = false → exec (.memoryPollTimeout levels) s = .next t) ∧
      t.mode = .run ∧ t.listenReason = none ∧ t.clock = ⟨0, 0⟩ ∧ t.cfg = s.cfg ∧ t.number = s.number ∧
      t.ownStart = n ∧ t.nextChange = 1 ∧ t.baseChange = 1 ∧ t.loader = ⟨none, none, none⟩ ∧
      t.startWriteFail = !acked ∧ t.viewOverflow = false ∧ t.duplicateStation = false ∧ t.stampConflict = false ∧
      t.view = [] ∧ t.queue = [⟨.alive ⟨s.number, n, s.cfg.hopBudget⟩, 1, .own, 0, 0⟩] ∧
      t.condensed = false ∧ (∀ p, tget t.unsent p false = false) ∧ t.counters = (s.count .itemsQueued).counters ∧
      (∀ o, rollGet t.roll o = if o = s.number then ⟨some n, 0, 0, false⟩ else ⟨none, 0, 0, false⟩) ∧
      (∀ p, t.filter p = ⟨if (s.cfg.family p).isSome then .normal else .unused, 0, none, 0, 0⟩) ∧
      (∀ c l, s.cfg.channel c = .lamp l →
        ∃ on, t.channel c = .lamp ⟨none, on, if on then some 0 else none, none, l.reference, 0, 0, false, none, none⟩ ∧
          (l.demand = none → on = true) ∧
          ∀ i, l.demand = some i → on = (levels.getLsbD i == (s.cfg.inputAt i).activeHigh)) ∧
      (∀ c l, s.cfg.channel c = .loop l →
        t.channel c = .loop ⟨none, l.nominal, false, none, none, none, none, none, none⟩) ∧
      (∀ i, i < 8 → t.input i = ⟨levels.getLsbD i, levels.getLsbD i, levels.getLsbD i⟩) ∧
      (∀ a, t.signRecord a = ⟨none, none, none⟩) ∧
      (nextSign s.cfg 0 = none → t.slc = ⟨.stopped, none, false, none, [], none, none⟩) ∧
      (∀ a, nextSign s.cfg 0 = some a → t.slc = ⟨.sending, some ⟨0, 0⟩, false, some a, [], none, none⟩) ∧
      t.trunk =
        (let seed := if s.number * 256 + n.toNat % 256 = 0 then 1#16
          else BitVec.ofNat 16 (s.number * 256 + n.toNat % 256)
        if s.trunk.cd then ⟨.enabled, .idle, 0, none, true, none, seed, none, none⟩
        else ⟨.enabled, .defer, 7 + (lfsrDraw seed).toNat % 16, some ⟨0, 0⟩, false, none, lfsrDraw seed, none, none⟩) ∧
      t.level = s.cfg.startLevel ∧ t.stack = [] ∧ t.attention = false ∧ t.cp = ⟨.hunting, [], none, none⟩ ∧
      t.restart = .none

/-- The end of a memory write in RUN or LISTEN: the memory holds the bytes of an acknowledged write, and a failed one
leaves every byte outside it as it was and each byte of it old or new; a failed start record latches START_WRITE_FAIL, a
configuration write fixes its reply OK or MEMORY_FAULT; then the waiting operation begins (R184, R188). The model's choices in
it: which bytes of a failed write are written is log 6, which of two waiting operations runs first log 8, the flag left as it
was by a write in RUN that succeeds log 9, no next operation while a restart waits for this end log 18. -/
def Obligations.MemoryWriteEnds : Prop :=
  ∀ (s : State) (acked : Bool) (levels : BitVec 8), Memory.wf s.mem = true →
    let stored := fun (t : State) (x : Nat) (bs : List Byte) =>
      (∀ y, y < x ∨ x + bs.length ≤ y → Memory.read t.mem y = Memory.read s.mem y) ∧
      (acked = true → ∀ k, k < bs.length → Memory.read t.mem (x + k) = (bs[k]?).getD 0) ∧
      (acked = false → ∀ k, k < bs.length →
        Memory.read t.mem (x + k) = (bs[k]?).getD 0 ∨ Memory.read t.mem (x + k) = Memory.read s.mem (x + k))
    let next := fun (t : State) =>
      if s.restart = .replyEnded then t.loader = { s.loader with op := none }
      else match s.loader.pendingStart, s.loader.waitingConfig with
        | none, none => t.loader = ⟨none, none, none⟩
        | some n, none => t.loader = ⟨some (.startWrite n), none, none⟩
        | none, some w => t.loader = ⟨some (.configWrite w), none, none⟩
        | some n, some w =>
          t.loader = ⟨some (.startWrite n), none, some w⟩ ∨ t.loader = ⟨some (.configWrite w), some n, none⟩
    (∀ n, s.loader.op = some (.startWrite n) →
      ∃ t, exec (.startRecordWriteDone acked levels) s = .next t ∧ stored t 504 (halfBytes n ++ halfBytes (~~~n))) ∧
    (∀ n, s.loader.op = some (.startWrite n) → s.mode ≠ .loading →
      ∃ t, exec (.startRecordWriteDone acked levels) s = .next t ∧
        (acked = false → exec (.memoryPollTimeout levels) s = .next t) ∧
        t = { s with mem := t.mem, free := t.free, loader := t.loader, startWriteFail := s.startWriteFail || !acked } ∧
        next t) ∧
    (∀ w, s.loader.op = some (.configWrite w) → w.offset + w.bytes.length ≤ 504 →
      ∃ t, exec (.configWriteDone acked) s = .next t ∧
        (acked = false → exec (.memoryPollTimeout levels) s = .next t) ∧
        t = { s with
              mem := t.mem, free := t.free, loader := t.loader,
              cp := { s.cp with reply := some ⟨0x13, if acked then .ok else .memoryFault, []⟩ } } ∧
        stored t w.offset w.bytes ∧ next t)

/-! ## Lamp channels (chapter 2) -/

/-- LAMP_SENSE_TICK in RUN: rows 1 to 6 of Table 2.3, in their order, give the class that the channel's record takes and
the filter is handed; the current is recorded whatever the class, the ratio on the ratio row alone; learning collects, and
completes or fails at the sixteenth current (R23, R27 to R29, R31 to R35). -/
def Obligations.LampTickClassifies : Prop :=
  ∀ (s : State) (c : Fin 16) (current : Nat) (cfg : LampCfg) (r : LampRecord),
    s.mode = .run → s.cfg.channel c = .lamp cfg → s.channel c = .lamp r →
    let i := min 2047 current
    let lost := ∃ n k, cfg.supply = some n ∧ (s.filter (24 + n)).declared = .fault k
    let warming := ∃ t, r.tw = some t ∧ since s.now t < cfg.warmUp
    let cooling := ∃ t, r.tc = some t ∧ since s.now t < 10
    let gives := fun (x : LampRecord) (q : Option Nat) (cls : SampleClass) =>
      exec (.lampSenseTick c current) s = .next (State.settle ((s.setChannel c (.lamp
        { x with latestCurrent := some i, latestClass := some cls, latestRatio := q })).applySample c cls))
    (lost → gives r none .neutral) ∧
    (¬ lost → r.demand = true → warming → gives r none .neutral) ∧
    (¬ lost → r.demand = true → ¬ warming → i = 2047 → gives r none (.abnormal .lampOvercurrent)) ∧
    (¬ lost → r.demand = true → ¬ warming → i < 2047 → r.reference = 0 →
      (r.learnFailed = true → gives r none (.abnormal .lampOut)) ∧
      (r.learnFailed = false → r.learnCount + 1 ≠ 16 →
        gives { r with learnCount := r.learnCount + 1, learnSum := r.learnSum + i } none .neutral) ∧
      (r.learnFailed = false → r.learnCount + 1 = 16 → 5 ≤ (r.learnSum + i) / 16 →
        gives { r with learnCount := 16, learnSum := r.learnSum + i, reference := (r.learnSum + i) / 16 } none .neutral) ∧
      (r.learnFailed = false → r.learnCount + 1 = 16 → (r.learnSum + i) / 16 < 5 →
        gives { r with learnCount := 0, learnSum := 0, learnFailed := true } none .neutral)) ∧
    (¬ lost → r.demand = true → ¬ warming → i < 2047 → 0 < r.reference →
      let q := min 4000 (i * 1000 / r.reference)
      gives r (some q) (if cfg.overLimit ≤ q then .abnormal .lampOvercurrent else if cfg.normalLow ≤ q then .normal
        else if cfg.outLimit ≤ q then .abnormal .lampPartial else .abnormal .lampOut)) ∧
    (¬ lost → r.demand = false → cooling → gives r none .neutral)

/-- The day test: a counted demand-off sample outside the cool-down window with the supply not lost is DAY_BURNING at or
above the day threshold and NORMAL below it, whatever the reference (R36). -/
def Obligations.DayTestUsesThresholdAlone : Prop :=
  ∀ (s : State) (c : Fin 16) (current : Nat) (cfg : LampCfg) (r : LampRecord),
    s.mode = .run → s.cfg.channel c = .lamp cfg → s.channel c = .lamp r →
    (¬ ∃ n k, cfg.supply = some n ∧ (s.filter (24 + n)).declared = .fault k) →
    r.demand = false → (¬ ∃ t, r.tc = some t ∧ since s.now t < 10) →
    let gives := fun cls : SampleClass =>
      exec (.lampSenseTick c current) s = .next (State.settle ((s.setChannel c (.lamp
        { r with latestCurrent := some (min 2047 current), latestClass := some cls, latestRatio := none })).applySample
          c cls))
    (cfg.dayThreshold ≤ min 2047 current → gives (.abnormal .dayBurning)) ∧
    (min 2047 current < cfg.dayThreshold → gives .normal)

/-! ## Cabinet inputs (chapter 5) -/

/-- INPUT_SAMPLE_INSTANT in RUN: each input's record takes the level, a filter that is on asks two like samples, and each
lamp channel that names an input whose filtered level changed takes a demand edge, the others nothing; nothing else
changes (R26, R76, R77, R79). INPUT_POINT_SAMPLE in RUN: the point of an input of role MAINS, DOOR or GENERAL takes an
abnormal sample of the role's kind while the input is active and a NORMAL one while it is not; an input of another role has
no point (R2, R78). -/
def Obligations.InputsAreSampled : Prop :=
  (∀ (s : State) (levels : BitVec 8), s.mode = .run →
     ∃ t, exec (.inputSampleInstant levels) s = .next t ∧
       t = { s with inputs := t.inputs, channels := t.channels } ∧
       (∀ i, i < 8 →
         let level := levels.getLsbD i
         t.input i = ⟨level, level, if (s.cfg.inputAt i).filter then
           (if level = (s.input i).previous then level else (s.input i).filtered) else level⟩) ∧
       (∀ c,
         (∀ cfg r n, s.cfg.channel c = .lamp cfg → s.channel c = .lamp r → cfg.demand = some n →
           (t.input n).filtered ≠ (s.input n).filtered →
           ((t.input n).filtered = (s.cfg.inputAt n).activeHigh →
             t.channel c = .lamp { r with
               demand := true, tw := some s.now, tc := none,
               learnCount := if r.reference = 0 then 0 else r.learnCount,
               learnSum := if r.reference = 0 then 0 else r.learnSum,
               learnFailed := if r.reference = 0 then false else r.learnFailed }) ∧
           ((t.input n).filtered ≠ (s.cfg.inputAt n).activeHigh →
             t.channel c = .lamp { r with
               demand := false, tw := none, tc := some s.now,
               learnCount := if r.reference = 0 then 0 else r.learnCount,
               learnSum := if r.reference = 0 then 0 else r.learnSum })) ∧
         ((∀ cfg n, s.cfg.channel c = .lamp cfg → cfg.demand = some n →
           (t.input n).filtered = (s.input n).filtered) → t.channel c = s.channel c))) ∧
  (∀ (s : State) (i : Fin 8), s.mode = .run →
     let active := (s.input i).filtered = (s.cfg.inputAt i).activeHigh
     (∀ k, ((s.cfg.inputAt i).role, k) ∈ [(Role.mains, Kind.mainsLost), (.door, .doorOpen), (.general, .inputActive)] →
       (active → exec (.inputPointSample i) s = .next (s.applySample (24 + i) (.abnormal k)).settle) ∧
       (¬ active → exec (.inputPointSample i) s = .next (s.applySample (24 + i) .normal).settle)) ∧
     ((s.cfg.inputAt i).role = .demand ∨ (s.cfg.inputAt i).role = .unused → exec (.inputPointSample i) s = .next s))

/-! ## Loop channels (chapter 3) -/

/-- GATE_COMPLETION in RUN. Below the open floor it is LOOP_OPEN, captured or not, and ends an occupancy; the first gate at
or above the floor captures the baseline, and the nominal count where none is configured; a measured gate takes deviation
and drift from the baseline as it stood, then the occupancy, then rows 3 to 7 of Table 3.3 in their order, then moves the
baseline if it is unoccupied and NORMAL, LOOP_DRIFT or LOOP_SILENT, then delivers the sample (R39, R42 to R53). -/
def Obligations.GateClassifies : Prop :=
  (∀ (s : State) (c : Fin 16) (count : Nat) (cfg : LoopCfg) (r : LoopRecord),
     s.mode = .run → s.cfg.channel c = .loop cfg → s.channel c = .loop r →
     let n := min 65535 count
     let gives := fun (x : LoopRecord) (cls : SampleClass) =>
       exec (.gateCompletion c count) s = .next (State.settle ((s.setChannel c (.loop
         { x with latestCount := some n, latestDeviation := none, latestDrift := none, latestClass := some cls })).applySample
           c cls))
     (n < cfg.openFloor → r.occStart = none → gives r (.abnormal .loopOpen)) ∧
     (n < cfg.openFloor → r.occStart ≠ none →
       gives { r with occStart := none, lastOccEnd := some s.now } (.abnormal .loopOpen)) ∧
     (cfg.openFloor ≤ n → r.capture = none →
       (r.nominal = 0 →
         gives { r with capture := some ⟨64 * n, s.now⟩, nominal := n, nominalCaptured := true } .neutral) ∧
       (r.nominal ≠ 0 → gives { r with capture := some ⟨64 * n, s.now⟩ } .neutral))) ∧
  (∀ (s : State) (c : Fin 16) (count : Nat) (cfg : LoopCfg) (r : LoopRecord) (base : Nat) (captured : Time),
     s.mode = .run → s.cfg.channel c = .loop cfg → s.channel c = .loop r → r.capture = some ⟨base, captured⟩ →
     cfg.openFloor ≤ min 65535 count →
     let n := min 65535 count
     let ref := base / 64
     let d : Int := max (-3200) (min 3200 (Int.tdiv (((n : Int) - ref) * 10000) ref))
     let e := min 1000 (((ref : Int) - r.nominal).natAbs * 1000 / r.nominal)
     let occupied := (cfg.detect : Int) ≤ d ∧ d < cfg.shortLimit
     let began := if occupied then some (r.occStart.getD s.now) else none
     let ended := if ¬ occupied ∧ r.occStart.isSome = true then some s.now else r.lastOccEnd
     let cls : SampleClass :=
       if (cfg.shortLimit : Int) ≤ d then .abnormal .loopShort
       else if occupied ∧ 60 * cfg.maxPresence ≤ since s.now (r.occStart.getD s.now) then .abnormal .loopStuck
       else if cfg.driftLimit ≤ e then .abnormal .loopDrift
       else if 0 < cfg.maxSilence ∧ ¬ occupied ∧ 3600 * cfg.maxSilence ≤ since s.now (ended.getD captured) then
         .abnormal .loopSilent
       else .normal
     let base' : Nat :=
       if ¬ occupied ∧ (cls = .normal ∨ cls = .abnormal .loopDrift ∨ cls = .abnormal .loopSilent) then
         ((base : Int) + Int.tdiv (64 * (n : Int) - base) 64).toNat
       else base
     exec (.gateCompletion c count) s = .next (State.settle ((s.setChannel c (.loop
       { r with
         capture := some ⟨base', captured⟩, occStart := began, lastOccEnd := ended, latestCount := some n,
         latestDeviation := some d, latestDrift := some e, latestClass := some cls })).applySample c cls)))

/-- Every step keeps each loop channel's captured baseline from 64 times its open floor to 64 × 65535, no channel working
outside RUN, and a channel that does not work with its records as reset leaves them (R23, R38, R53, R56; their working
reference and nominal count are log 35). -/
def Obligations.BaselinesStayInRange : Prop :=
  ∀ s t : State, s.baselinesOk = true → step s = .next t → t.baselinesOk = true

/-! ## The Point Filter (chapter 1) -/

/-- A sample that declares nothing: discarded by an UNUSED or INHIBITED point, without effect where neutral, and otherwise
evidence alone (R4, R7, R10, R11). -/
def Obligations.SampleWithoutDeclaration : Prop :=
  ∀ (s : State) (p : Nat),
    let f := s.filter p
    let c := s.cfg.paramsOf p
    let up := min 63 (f.p + c.up)
    let raised := fun k : Kind =>
      s.setFilter p { f with p := up, l := some k, r := if f.l = some k then min 15 (f.r + 1) else 1 }
    (∀ cls, f.declared = .unused ∨ f.declared = .inhibited → s.applySample p cls = s) ∧
    (s.applySample p .neutral = s) ∧
    (f.declared = .normal → s.applySample p .normal = s.setFilter p { f with p := f.p - c.down, l := none, r := 0 }) ∧
    (∀ d, f.declared = .fault d → c.off < f.p - c.down →
      s.applySample p .normal = s.setFilter p { f with p := f.p - c.down, l := none, r := 0 }) ∧
    (∀ k, f.declared = .normal → up < c.on → s.applySample p (.abnormal k) = raised k) ∧
    (∀ d, f.declared = .fault d → s.applySample p (.abnormal d) = raised d) ∧
    (∀ d k, f.declared = .fault d → k ≠ d → (if f.l = some k then min 15 (f.r + 1) else 1) < c.confirm →
      s.applySample p (.abnormal k) = raised k)

/-- The affected count of an input is the number of LAMP channels 0..15 that name it as their supply and have demand ON
(R81). Onset: an abnormal sample that carries P of a NORMAL point to the on threshold declares FAULT of its kind, adds one
occurrence, takes an own stamp, writes the own entry ACTIVE and offers the own item; nothing else changes (R9, R13, R16,
R19, R81). The view has room and no start-count advance is due. -/
def Obligations.OnsetDeclaresFault : Prop :=
  (∀ (s : State) (i : Nat),
    (∀ n r, s.suppliedLamp i n = some r ↔
      ∃ cfg, s.cfg.channel n = .lamp cfg ∧ cfg.supply = some i ∧ s.channel n = .lamp r) ∧
    s.affectedCount i = ((List.range 16).filter fun n =>
      match s.cfg.channel n, s.channel n with
      | .lamp cfg, .lamp r => decide (cfg.supply = some i) && r.demand
      | _, _ => false).length) ∧
  ∀ (s : State) (p : Nat) (k : Kind),
    let f := s.filter p
    let c := s.cfg.paramsOf p
    f.declared = .normal → c.on ≤ min 63 (f.p + c.up) → s.roomFor p = true → s.stampFree = true →
    let st : Stamp := ⟨s.ownStart, s.nextChange⟩
    let occ := min 255 (f.occurrences + 1)
    let affected := if 24 ≤ p ∧ (s.cfg.inputAt (p - 24)).role = .mains then some (s.affectedCount (p - 24)) else none
    let t := s.applySample p (.abnormal k)
    t = { s with filters := t.filters, toCounty := t.toCounty } ∧
    t.filters = tset s.filters p
      ⟨.fault k, min 63 (f.p + c.up), some k, if f.l = some k then min 15 (f.r + 1) else 1, occ⟩ ∧
    t.toCounty = { s.toCounty with toViewSide := t.toViewSide, nextChange := s.nextChange + 1 } ∧
    t.viewOverflow = s.viewOverflow ∧
    findEntry t.view s.number p = some
      { origin := s.number, point := p, kind := k, severity := s.cfg.severityOf k, state := .active, stamp := some st,
        occurrences := occ, ageBase := 0, baseTime := s.now, lastHeard := s.now, ack := none, affected := affected,
        own := true, localOnly := false, stale := false, endedByRestart := false, retireTime := none,
        lastSent := (findEntry s.view s.number p).bind (·.lastSent) } ∧
    (∀ o q, ¬ (o = s.number ∧ q = p) → findEntry t.view o q = findEntry s.view o q) ∧
    t.toQueueSide = offerItem s.ctx s.roll t.view
      ⟨.fault ⟨s.number, p, st, k, s.cfg.severityOf k, .active, occ, 0, s.now, s.cfg.hopBudget, none, affected⟩,
        s.cfg.severityOf k, .own, 0, 0⟩ s.toQueueSide

/-- Kind change and clear of a point in FAULT whose own entry stands: the new stamp, the entry re-opened under the new kind
with its age running on, or CLEARED, or RETIRED where it was acknowledged; the own item offered; at the clear of a MAINS
point each lamp channel it supplies restarts its warm-up where demand is ON (R10, R11, R16, R17, R19, R29, R81). -/
def Obligations.KindChangeAndClear : Prop :=
  ∀ (s : State) (p : Nat) (d : Kind) (e : Entry),
    let f := s.filter p
    let c := s.cfg.paramsOf p
    f.declared = .fault d → findEntry s.view s.number p = some e → s.stampFree = true →
    let st : Stamp := ⟨s.ownStart, s.nextChange⟩
    let run := fun k : Kind => if f.l = some k then min 15 (f.r + 1) else 1
    let affected := if 24 ≤ p ∧ (s.cfg.inputAt (p - 24)).role = .mains then some (s.affectedCount (p - 24)) else none
    let changed := fun (t : State) (f' : FilterRecord) (e' : Entry) =>
      t = { s with filters := tset s.filters p f', channels := t.channels, toCounty := t.toCounty } ∧
      t.toCounty = { s.toCounty with toViewSide := t.toViewSide, nextChange := s.nextChange + 1 } ∧
      t.viewOverflow = s.viewOverflow ∧ findEntry t.view s.number p = some e' ∧
      (∀ o q, ¬ (o = s.number ∧ q = p) → findEntry t.view o q = findEntry s.view o q) ∧
      t.toQueueSide = offerItem s.ctx s.roll t.view
        ⟨.fault ⟨s.number, p, st, e'.kind, e'.severity, if e'.state = .active then .active else .cleared, e'.occurrences,
          e'.age s.now, s.now, s.cfg.hopBudget, e'.ack, e'.affected⟩, e'.severity, .own, 0, 0⟩ s.toQueueSide
    (∀ k, k ≠ d → c.confirm ≤ run k →
      let t := s.applySample p (.abnormal k)
      changed t { f with declared := .fault k, p := min 63 (f.p + c.up), l := some k, r := run k }
        { e with state := .active, kind := k, severity := s.cfg.severityOf k, stamp := some st, lastHeard := s.now,
                 ack := none } ∧
      t.channels = s.channels) ∧
    (f.p - c.down ≤ c.off →
      let t := s.applySample p .normal
      changed t { f with declared := .normal, p := f.p - c.down, l := none, r := 0 }
        { e with state := if e.ack.isSome then .retired else .cleared, stamp := some st, ageBase := 0, baseTime := s.now,
                 lastHeard := s.now, affected := affected,
                 retireTime := if e.ack.isSome then some (s.now + BitVec.ofNat 32 (60 * s.cfg.retireHold))
                   else e.retireTime } ∧
      ∀ n,
        (∀ r, 24 ≤ p → (s.cfg.inputAt (p - 24)).role = .mains → s.suppliedLamp (p - 24) n = some r → r.demand = true →
          t.channel n = .lamp { r with tw := some s.now }) ∧
        (¬ (24 ≤ p ∧ (s.cfg.inputAt (p - 24)).role = .mains ∧ ∃ r, s.suppliedLamp (p - 24) n = some r ∧ r.demand = true) →
          t.channel n = s.channel n))

/-- INHIBIT, in the order of R15. A point in NORMAL or FAULT becomes INHIBITED with its evidence kept, its own entry
INHIBITED with the declared kind, or the kind it holds, or the principal kind, and the own item offered; a MAINS point that
was in FAULT restarts the warm-up of the lamps it supplies (R15, R17, R19, R29, R81). -/
def Obligations.InhibitAnswersInOrder : Prop :=
  ∀ (s : State) (p : Byte), s.ready = true →
    let n := p.toNat
    let f := s.filter n
    (s.mode = .listen → exec (.inhibit p) s = .next (s.replied 0x0A .wrongState [])) ∧
    (s.mode = .run → 31 < n → exec (.inhibit p) s = .next (s.replied 0x0A .notLocal [])) ∧
    (s.mode = .run → n ≤ 31 → f.declared = .unused → exec (.inhibit p) s = .next (s.replied 0x0A .notConfigured [])) ∧
    (s.mode = .run → n ≤ 31 → f.declared = .inhibited → exec (.inhibit p) s = .next (s.replied 0x0A .ok [])) ∧
    (∀ k, s.mode = .run → f.declared = .normal ∧ (k = match findEntry s.view s.number n with
        | some e => e.kind
        | none => s.cfg.principalKind n) ∨ s.mode = .run ∧ f.declared = .fault k →
      s.roomFor n = true → s.stampFree = true →
      let st : Stamp := ⟨s.ownStart, s.nextChange⟩
      let affected := if 24 ≤ n ∧ (s.cfg.inputAt (n - 24)).role = .mains then some (s.affectedCount (n - 24)) else none
      ∃ t : State, exec (.inhibit p) s = .next (t.settle.replied 0x0A .ok []) ∧
        t = { s with
              filters := tset s.filters n { f with declared := .inhibited }, channels := t.channels,
              toCounty := t.toCounty } ∧
        t.toCounty = { s.toCounty with toViewSide := t.toViewSide, nextChange := s.nextChange + 1 } ∧
        t.viewOverflow = s.viewOverflow ∧
        findEntry t.view s.number n = some
          { origin := s.number, point := n, kind := k, severity := s.cfg.severityOf k, state := .inhibited,
            stamp := some st, occurrences := f.occurrences, ageBase := 0, baseTime := s.now, lastHeard := s.now,
            ack := none, affected := affected, own := true, localOnly := false, stale := false, endedByRestart := false,
            retireTime := none, lastSent := (findEntry s.view s.number n).bind (·.lastSent) } ∧
        (∀ o q, ¬ (o = s.number ∧ q = n) → findEntry t.view o q = findEntry s.view o q) ∧
        t.toQueueSide = offerItem s.ctx s.roll t.view
          ⟨.fault ⟨s.number, n, st, k, s.cfg.severityOf k, .inhibited, f.occurrences, 0, s.now, s.cfg.hopBudget, none,
            affected⟩, s.cfg.severityOf k, .own, 0, 0⟩ s.toQueueSide ∧
        ∀ m,
          (∀ r, f.declared ≠ .normal → 24 ≤ n → (s.cfg.inputAt (n - 24)).role = .mains →
            s.suppliedLamp (n - 24) m = some r → r.demand = true → t.channel m = .lamp { r with tw := some s.now }) ∧
          (f.declared = .normal ∨ ¬ (24 ≤ n ∧ (s.cfg.inputAt (n - 24)).role = .mains ∧
            ∃ r, s.suppliedLamp (n - 24) m = some r ∧ r.demand = true) → t.channel m = s.channel m))

/-- RELEASE, in the order of R18. An INHIBITED point returns to NORMAL without evidence, its own entry retires with its ack
part retargeted, the own item is offered CLEARED, and a lamp channel with demand ON restarts its warm-up (R18, R19, R30,
R81). -/
def Obligations.ReleaseAnswersInOrder : Prop :=
  ∀ (s : State) (p : Byte), s.ready = true →
    let n := p.toNat
    let f := s.filter n
    (s.mode = .listen → exec (.release p) s = .next (s.replied 0x0B .wrongState [])) ∧
    (s.mode = .run → 31 < n → exec (.release p) s = .next (s.replied 0x0B .notLocal [])) ∧
    (s.mode = .run → n ≤ 31 → f.declared = .unused → exec (.release p) s = .next (s.replied 0x0B .notConfigured [])) ∧
    (s.mode = .run → n ≤ 31 → f.declared = .normal ∨ (∃ k, f.declared = .fault k) →
      exec (.release p) s = .next (s.replied 0x0B .wrongState [])) ∧
    (∀ e, s.mode = .run → f.declared = .inhibited → findEntry s.view s.number n = some e → s.stampFree = true →
      let st : Stamp := ⟨s.ownStart, s.nextChange⟩
      let affected := if 24 ≤ n ∧ (s.cfg.inputAt (n - 24)).role = .mains then some (s.affectedCount (n - 24)) else none
      ∃ t : State, exec (.release p) s = .next (t.settle.replied 0x0B .ok []) ∧
        t = { s with
              filters := tset s.filters n { f with declared := .normal, p := 0, l := none, r := 0 },
              channels := t.channels, toCounty := t.toCounty } ∧
        t.toCounty = { s.toCounty with toViewSide := t.toViewSide, nextChange := s.nextChange + 1 } ∧
        t.viewOverflow = s.viewOverflow ∧
        findEntry t.view s.number n = some
          { e with state := .retired, stamp := some st, ageBase := 0, baseTime := s.now, lastHeard := s.now,
                   affected := affected, retireTime := some (s.now + BitVec.ofNat 32 (60 * s.cfg.retireHold)) } ∧
        (∀ o q, ¬ (o = s.number ∧ q = n) → findEntry t.view o q = findEntry s.view o q) ∧
        t.toQueueSide = offerItem s.ctx s.roll t.view
          ⟨.fault ⟨s.number, n, st, e.kind, e.severity, .cleared, e.occurrences, 0, s.now, s.cfg.hopBudget, e.ack,
            affected⟩, e.severity, .own, 0, 0⟩ s.toQueueSide ∧
        (∀ m, m ≠ n → t.channel m = s.channel m) ∧
        (∀ r, n < 16 → s.channel n = .lamp r → r.demand = true → t.channel n = .lamp { r with tw := some s.now }) ∧
        ((∀ r, ¬ (n < 16 ∧ s.channel n = .lamp r ∧ r.demand = true)) → t.channel n = s.channel n))

/-- Every step keeps the filter records: counts within their ranges, a point UNUSED exactly where it is not configured and
everywhere outside RUN, a point in FAULT above its off threshold (R1, R5, R7, R22). -/
def Obligations.FiltersStayInRange : Prop :=
  ∀ s t : State, s.filtersOk = true → step s = .next t → t.filtersOk = true

/-- Every step keeps this: a point in FAULT has its own entry ACTIVE with the declared kind, an INHIBITED point its own
entry INHIBITED; own entries are this station's and at points 0..31; no other entry is (R16, R22, R84, R104). -/
def Obligations.FaultedPointKeepsItsEntry : Prop :=
  ∀ s t : State, s.viewOk = true → s.ownersOk = true → s.ownEntriesOk = true → step s = .next t →
    t.ownersOk = true ∧ t.ownEntriesOk = true

/-! ## The Sign Line Controller (chapter 4) -/

/-- The request to sign `a`: the address with the marker, 53h, and the check character, which makes the sum a multiple of
256; for sign 3 it is AAh (R60). -/
def Obligations.SignRequestCharacters : Prop :=
  (∀ (s : State) (a : Nat), s.slc.state = .sending → s.slc.current = some a → 1 ≤ a → a ≤ 8 →
    let check := (256 - (a + 83) % 256) % 256
    s.slc.line = [(true, BitVec.ofNat 8 a), (false, 0x53), (false, BitVec.ofNat 8 check)] ∧ (a + 83 + check) % 256 = 0) ∧
  signRequest 3 = [(true, 3), (false, 0x53), (false, 0xAA)]

/-- POLL_CYCLE_DUE, SIGN_REQUEST_END and GUARD_EXPIRY by the controller's state: a cycle starts with the present sign of
lowest address, is owed while one runs, goes on to the present sign of lowest address above the current one, and ends in
the owed cycle or in WAITING (R63 to R65; when the timeout start goes absent is the model's choice, log 31). -/
def Obligations.PollCycleGoesByAddress : Prop :=
  ∀ s : State,
    let present := fun a => 1 ≤ a ∧ a ≤ 8 ∧ (s.cfg.signAt a).present = true
    let lowestAbove := fun a b => present b ∧ a < b ∧ ∀ d, present d → a < d → b ≤ d
    let sends := fun (c : Slc) b =>
      { s with slc := { c with
        state := .sending, current := some b, buffer := [], timeoutStart := none, guardStart := none } }
    (s.slc.state = .stopped → exec .pollCycleDue s = .next s) ∧
    (∀ b, s.slc.state = .waiting → lowestAbove 0 b → exec .pollCycleDue s = .next (sends s.slc b)) ∧
    (s.slc.state = .sending ∨ s.slc.state = .awaiting ∨ s.slc.state = .guarding →
      exec .pollCycleDue s = .next { s with slc := { s.slc with owed := true } }) ∧
    (s.slc.state = .sending → exec .signRequestEnd s =
      .next { s with slc := { s.slc with state := .awaiting, timeoutStart := some s.clock } }) ∧
    (∀ a b, s.slc.state = .guarding → s.slc.current = some a → lowestAbove a b →
      exec .guardExpiry s = .next (sends s.slc b)) ∧
    (∀ a b, s.slc.state = .guarding → s.slc.current = some a → (∀ d, present d → d ≤ a) → s.slc.owed = true →
      lowestAbove 0 b → exec .guardExpiry s = .next (sends { s.slc with owed := false } b)) ∧
    (∀ a, s.slc.state = .guarding → s.slc.current = some a → (∀ d, present d → d ≤ a) → s.slc.owed = false →
      exec .guardExpiry s = .next { s with
        slc := { s.slc with state := .waiting, current := none, guardStart := none, timeoutStart := none } })

/-- A transaction's outcome from its characters: NO_REPLY with none, GARBLED with the first reason of Table 4.6 that holds,
GOOD exactly when six characters without framing error or marker begin with the address and sum to 0; in AWAITING the
buffer never holds more (R61, R67). -/
def Obligations.TransactionOutcomeOrder : Prop :=
  ∀ (a : Nat) (b : List SignChar), b.length ≤ 6 →
    let first := (b.head?).map (·.value)
    let sum := byteSum (b.map (·.value))
    (transactionOutcome a b = .good ↔ b.length = 6 ∧ (∀ x ∈ b, x.framing = false) ∧ (∀ x ∈ b, x.marker = false) ∧
      first = some (BitVec.ofNat 8 a) ∧ sum = 0) ∧
    (transactionOutcome a b = .noReply ↔ b = []) ∧
    (transactionOutcome a b = .garbled .short ↔ 1 ≤ b.length ∧ b.length < 6) ∧
    (transactionOutcome a b = .garbled .framing ↔ b.length = 6 ∧ ∃ x ∈ b, x.framing = true) ∧
    (transactionOutcome a b = .garbled .marker ↔
      b.length = 6 ∧ (∀ x ∈ b, x.framing = false) ∧ ∃ x ∈ b, x.marker = true) ∧
    (transactionOutcome a b = .garbled .address ↔ b.length = 6 ∧ (∀ x ∈ b, x.framing = false) ∧
      (∀ x ∈ b, x.marker = false) ∧ first ≠ some (BitVec.ofNat 8 a)) ∧
    (transactionOutcome a b = .garbled .check ↔ b.length = 6 ∧ (∀ x ∈ b, x.framing = false) ∧
      (∀ x ∈ b, x.marker = false) ∧ first = some (BitVec.ofNat 8 a) ∧ sum ≠ 0)

/-- SIGN_CHARACTER_RECEIVED and REPLY_TIMEOUT_EXPIRY: in AWAITING a character is stored, the sixth or the time-out ends the
transaction with its outcome recorded and counted, GUARD entered and the sample delivered; in every other state nothing
happens (R66 to R70). -/
def Obligations.TransactionEnds : Prop :=
  ∀ (s : State) (v : Byte) (marker framing : Bool),
    let longer := s.slc.buffer ++ [⟨v, marker, framing⟩]
    (s.slc.state ≠ .awaiting → exec (.signCharacterReceived v marker framing) s = .next s ∧
      exec .replyTimeoutExpiry s = .next s) ∧
    (s.slc.state = .awaiting → longer.length < 6 → exec (.signCharacterReceived v marker framing) s =
      .next { s with slc := { s.slc with buffer := longer } }) ∧
    (∀ a, s.slc.state = .awaiting → s.slc.current = some a → 1 ≤ a → a ≤ 8 →
      let ends := fun (b : List SignChar) (k : County) (r : SignRecord) (cls : SampleClass) =>
        State.settle (State.applySample
          { s with
            toCounty := k, signs := tset s.signs (a - 1) r,
            slc := { s.slc with buffer := b, state := .guarding, guardStart := some s.clock } } (15 + a) cls)
      let goes := fun (i : Instr) (b : List SignChar) =>
        (transactionOutcome a b = .noReply → exec i s = .next (ends b (s.toCounty.count .signTimeouts)
          { s.signRecord a with lastOutcome := some (.noReply, s.now), latestClass := some (.abnormal .signComm) }
          (.abnormal .signComm))) ∧
        (∀ g, transactionOutcome a b = .garbled g → exec i s = .next (ends b (s.toCounty.count .signGarbled)
          { s.signRecord a with lastOutcome := some (.garbled g, s.now), latestClass := some (.abnormal .signComm) }
          (.abnormal .signComm))) ∧
        (∀ c0 c1 c2 c3 c4 c5, b = [c0, c1, c2, c3, c4, c5] → transactionOutcome a b = .good →
          let pixels := c2.value.toNat * 256 + c3.value.toNat
          let cls : SampleClass :=
            if c1.value.getLsbD 0 then .abnormal .signPower else if c1.value.getLsbD 1 then .abnormal .signReported
            else if (s.cfg.signAt a).pixelLimit < pixels then .abnormal .signPixelLoss
            else if c1.value.getLsbD 2 then .abnormal .signDoor else .normal
          exec i s = .next (ends b s.toCounty
            ⟨some (.good, s.now), some cls, some ⟨c1.value.getLsbD 0, c1.value.getLsbD 1, c1.value.getLsbD 2, pixels,
              c4.value, s.now⟩⟩ cls))
      (6 ≤ longer.length → goes (.signCharacterReceived v marker framing) longer) ∧
      goes .replyTimeoutExpiry s.slc.buffer)

/-- SIGN STOP from every state, and SIGN START in the order of R72 (R71, R72). The model's choices in it: the time and the class
NEUTRAL recorded for an abandoned transaction are log 21, the state in the reply as the effect leaves it log 12, the timeout
start absent after SIGN STOP log 31. -/
def Obligations.SignStopAndStart : Prop :=
  ∀ s : State, s.ready = true →
    let stopped : Slc := { s.slc with
      state := .stopped, origin := none, owed := false, current := none, timeoutStart := none, guardStart := none }
    let present := fun a => 1 ≤ a ∧ a ≤ 8 ∧ (s.cfg.signAt a).present = true
    (s.slc.state = .stopped → exec .signStop s = .next (s.replied 0x11 .ok [0])) ∧
    (s.slc.state = .waiting ∨ s.slc.state = .guarding →
      exec .signStop s = .next (State.replied { s with slc := stopped } 0x11 .ok [0])) ∧
    (∀ a, s.slc.state = .sending ∨ s.slc.state = .awaiting → s.slc.current = some a → 1 ≤ a → a ≤ 8 →
      exec .signStop s = .next (State.replied
        { s with
          slc := stopped, signs := tset s.signs (a - 1)
            { s.signRecord a with lastOutcome := some (.abandoned, s.now), latestClass := some .neutral } } 0x11 .ok [0])) ∧
    (s.slc.state ≠ .stopped → exec .signStart s = .next (s.replied 0x12 .wrongState [])) ∧
    (s.slc.state = .stopped → (∀ a, ¬ present a) → exec .signStart s = .next (s.replied 0x12 .notConfigured [])) ∧
    (∀ a, s.slc.state = .stopped → present a → (∀ b, present b → a ≤ b) →
      exec .signStart s = .next (State.replied
        { s with slc := ⟨.sending, some s.clock, false, some a, [], none, none⟩ } 0x12 .ok [2]))

/-! ## The county channel (chapter 9) -/

/-- TRUNK_CHARACTER_RECEIVED: hunting for 7Eh under CD, then the length, the extent, the CRC and the parse; each way a frame
ends without being handed on counts once; a blind controller takes nothing (R148 to R152). -/
def Obligations.TrunkCharacterTaken : Prop :=
  ∀ (s : State) (v : Byte) (framing : Bool),
    let taking := fun f : Option RxFrame => ({ s with trunk := { s.trunk with rx := f } } : State)
    let char := Instr.trunkCharacterReceived v framing
    (s.trunk.blind = true ∨ s.live = false → exec char s = .next s) ∧
    (s.live = true → s.trunk.blind = false →
      (s.trunk.rx = none → v = 0x7E → framing = false → s.trunk.cd = true →
        exec char s = .next (taking (some ⟨none, []⟩)).settle) ∧
      (s.trunk.rx = none → ¬ (v = 0x7E ∧ framing = false ∧ s.trunk.cd = true) → exec char s = .next s) ∧
      (∀ f, s.trunk.rx = some f → framing = true →
        exec char s = .next ((taking none).count .badFormat).settle) ∧
      (∀ cs, s.trunk.rx = some ⟨none, cs⟩ → framing = false →
        (4 ≤ v.toNat ∧ v.toNat ≤ 240 → exec char s = .next (taking (some ⟨some v.toNat, []⟩))) ∧
        (v.toNat < 4 ∨ 240 < v.toNat → exec char s = .next ((taking none).count .badFormat).settle)) ∧
      (∀ n cs, s.trunk.rx = some ⟨some n, cs⟩ → framing = false →
        (cs.length + 1 ≠ n + 2 → exec char s = .next (taking (some ⟨some n, cs ++ [v]⟩))) ∧
        (cs.length + 1 = n + 2 →
          let body := (cs ++ [v]).take n
          let sent := (cs ++ [v]).drop n
          (sent ≠ halfBytes (crc (BitVec.ofNat 8 n :: body)) →
            exec char s = .next ((taking none).count .badCheck).settle) ∧
          (sent = halfBytes (crc (BitVec.ofNat 8 n :: body)) → parseBulletin s.now body = none →
            exec char s = .next ((taking none).count .badFormat).settle) ∧
          (∀ b, sent = halfBytes (crc (BitVec.ofNat 8 n :: body)) → parseBulletin s.now body = some b →
            exec char s = .next (State.settle { taking none with
              toCounty := s.toCounty.hearBulletin s.ctx b.sender b.start b.items })))))

/-- CD_ACTIVE makes the channel busy: a slot in progress is discarded and the count frozen. CD_INACTIVE truncates a frame
in progress, and on the clear channel a frozen count resumes with a full slot, and a waiting controller opens an access
with a fresh draw (R149, R150, R153 to R155). The premises are what every step keeps. -/
def Obligations.CarrierFreezesAndClears : Prop :=
  ∀ s : State, s.attentionOk = true → s.slotOk = true →
    let down := { s.trunk with cd := false, rx := none }
    let counted := if s.trunk.rx.isSome then s.count .truncated else s
    exec .cdActive s = .next { s with trunk := { s.trunk with
      cd := true, slot := if s.trunk.access = .defer then none else s.trunk.slot } } ∧
    (s.trunk.cd = false → exec .cdInactive s = .next s) ∧
    (s.trunk.cd = true → s.trunk.access = .defer →
      exec .cdInactive s = .next { counted with trunk := { down with slot := some s.clock } }) ∧
    (∀ x q, s.trunk.cd = true → s.trunk.access = .idle → s.trunk.enable = .enabled → s.queue = x :: q →
      exec .cdInactive s = .next { counted with trunk := { down with
        access := .defer, slot := some s.clock, lfsr := lfsrDraw s.trunk.lfsr,
        count := 8 - x.severity + (lfsrDraw s.trunk.lfsr).toNat % 16 } }) ∧
    (s.trunk.cd = true → s.trunk.access = .idle → s.queue = [] →
      exec .cdInactive s = .next { counted with trunk := down }) ∧
    (s.trunk.cd = true → s.trunk.access = .off ∨ s.trunk.access = .keyup ∨ s.trunk.access = .send →
      exec .cdInactive s = .next { counted with trunk := down })

/-- What ends every event of the controller's concern: with the controller ENABLED and IDLE, a clear channel and items
queued, an access opens with a fresh draw, its count 8 less the head's severity plus the draw; a slot runs in DEFER on a
clear channel alone; the attention output follows its condition (R153 to R155, R164). A draw is four steps of the register,
each the exclusive-or of bits 0, 2, 3 and 5 into bit 15 and the other bits one place down; two stations of one start count
are seeded apart (R154). -/
def Obligations.EventEndOpensAccess : Prop :=
  ((∀ r : Half, (lfsrStep r).getLsbD 15 = (r.getLsbD 0 ^^ r.getLsbD 2 ^^ r.getLsbD 3 ^^ r.getLsbD 5) ∧
     ∀ i, i < 15 → (lfsrStep r).getLsbD i = r.getLsbD (i + 1)) ∧
   (∀ r, lfsrDraw r = lfsrStep (lfsrStep (lfsrStep (lfsrStep r)))) ∧
   ∀ (a b : Nat) (start : Half), 1 ≤ a → a ≤ 240 → 1 ≤ b → b ≤ 240 → a ≠ b → lfsrSeed a start ≠ lfsrSeed b start) ∧
  (∀ s : State,
     s.settle = { s with trunk := s.settle.trunk, attention := s.settle.attention } ∧
     (s.settle.attention = true ↔ ∃ e ∈ s.view, s.level < e.severity ∧
       (e.state = .active ∧ e.ack = none ∨ e.state = .cleared)) ∧
     (∀ x q, s.trunk.access = .idle → s.trunk.enable = .enabled → s.trunk.cd = false → s.trunk.rx = none →
       s.queue = x :: q → s.settle.trunk = { s.trunk with
         access := .defer, slot := some s.clock, lfsr := lfsrDraw s.trunk.lfsr,
         count := 8 - x.severity + (lfsrDraw s.trunk.lfsr).toNat % 16 }) ∧
     (s.trunk.access = .idle → s.trunk.enable ≠ .enabled ∨ s.trunk.cd = true ∨ s.trunk.rx ≠ none ∨ s.queue = [] →
       s.settle.trunk = s.trunk) ∧
     (s.trunk.access = .defer → s.trunk.cd = true ∨ s.trunk.rx ≠ none →
       s.settle.trunk = { s.trunk with slot := none }) ∧
     (s.trunk.access = .defer → s.trunk.cd = false → s.trunk.rx = none →
       s.settle.trunk = { s.trunk with slot := some (s.trunk.slot.getD s.clock) }) ∧
     (s.trunk.access = .off ∨ s.trunk.access = .keyup ∨ s.trunk.access = .send → s.settle.trunk = s.trunk))

/-- SLOT_EXPIRY in DEFER: the count falls; at 0 an empty queue sends the controller back to IDLE, and a queue with items to
KEYUP, or to SEND where the key-up delay is 0, with the bulletin assembled from its head: at most twelve items and 236
item bytes, their charge released, the last sent time set on the entries of own and corrective news (in this clause no
unsent mark stands, so that no resync pass queues anything). KEYUP_DELAY_EXPIRY enters SEND; SEND_COMPLETE counts the
bulletin and releases KEY: to IDLE, where an access may open at once, or to DISABLED and OFF at the end of a drain (R139,
R145, R155 to R158). -/
def Obligations.SlotKeyUpSend : Prop :=
  (∀ s : State, s.trunk.access = .defer → s.trunk.slot.isSome = true →
     (1 < s.trunk.count → exec .slotExpiry s =
       .next { s with trunk := { s.trunk with count := s.trunk.count - 1, slot := some s.clock } }) ∧
     (s.trunk.count ≤ 1 → s.queue = [] →
       exec .slotExpiry s = .next { s with trunk := { s.trunk with access := .idle, count := 0, slot := none } }) ∧
     (s.trunk.count ≤ 1 → s.queue ≠ [] → (∀ x ∈ s.queue, x.seq < s.nextSeq ∧ x.item.size ≤ 48) →
       (∀ p, tget s.unsent p false = false) → s.attentionOk = true →
       let part := bulletinPart 12 0 s.queue
       let body := bulletinBody s.number s.ownStart s.now (part.map (·.item))
       let tells := fun (x : QItem) (e : Entry) => setsLastSent s.ctx x = true ∧ e.origin = x.item.origin ∧
         e.point ∈ x.item.points
       ∃ t, exec .slotExpiry s = .next t ∧ part ≠ [] ∧
         t = { s with toQueueSide := t.toQueueSide, view := t.view, trunk := t.trunk } ∧
         t.toQueueSide = { s.toQueueSide with queue := s.queue.drop part.length, condensed := t.condensed } ∧
         (∀ o p, findEntry s.view o p = none → findEntry t.view o p = none) ∧
         (∀ o p e, findEntry s.view o p = some e →
           ((∃ x ∈ part, tells x e) → findEntry t.view o p = some { e with lastSent := some s.now }) ∧
           ((¬ ∃ x ∈ part, tells x e) → findEntry t.view o p = some e)) ∧
         t.trunk = { s.trunk with
           access := if s.cfg.keyUpDelay = 0 then .send else .keyup, count := 0, slot := none, rx := none,
           bulletin := some (bulletinFrame body), since := some s.clock })) ∧
  (∀ s : State,
     (s.trunk.access = .keyup →
       exec .keyupDelayExpiry s = .next { s with trunk := { s.trunk with access := .send, since := some s.clock } }) ∧
     (s.trunk.access = .send → s.trunk.enable = .enabled → exec .sendComplete s = .next (State.settle
       { s.count .bulletinsSent with trunk := { s.trunk with access := .idle, bulletin := none, since := none } })) ∧
     (s.trunk.access = .send → s.trunk.enable = .draining → s.attentionOk = true → exec .sendComplete s = .next
       { s.count .bulletinsSent with
         trunk := { s.trunk with access := .off, enable := .disabled, bulletin := none, since := none } }) ∧
     (s.trunk.access = .off ∨ s.trunk.access = .idle ∨ s.trunk.access = .defer →
       exec .keyupDelayExpiry s = .next s ∧ exec .sendComplete s = .next s))

/-- The bytes a station lays out for a bulletin of sendable items parse to the sender, the start count and the items, with
the ages fixed at sending (R139, R145, R147, R151). A bulletin is malformed, and parses to nothing, where the sender lies
outside 1..240, the count outside 0..12 or the header is cut; where bytes stand behind the last counted item; where an item,
behind any number of good ones, is malformed: none left or cut short, a type code not 1..4, an origin or acking station
outside 1..240, a point above 31 (254 for an ALIVE), a kind outside 1..17, a severity of 0 (1 for an ALIVE), a state code of
0, a hop budget above 7, an affected count above 16, a COMPACT's point count outside 2..8 or a point twice in it (R151). -/
def Obligations.BulletinParsesBack : Prop :=
  (∀ (sender : Nat) (start : Half) (sent heard : Time) (items : List Item),
    1 ≤ sender → sender ≤ 240 → items.length ≤ 12 → (∀ i ∈ items, i.sendable = true) →
    parseBulletin heard (bulletinBody sender start sent items) =
      some ⟨sender, start, items.map (Item.asHeard sent heard)⟩) ∧
  (∀ (heard : Time) (sender s0 s1 n : Byte) (rest : List Byte),
    (sender.toNat = 0 ∨ 240 < sender.toNat ∨ 12 < n.toNat → parseBulletin heard (sender :: s0 :: s1 :: n :: rest) = none) ∧
    (rest.length < 4 → parseBulletin heard rest = none) ∧
    (∀ (sent : Time) (good : List Item), (∀ i ∈ good, i.sendable = true) →
      let bytes := good.flatMap (itemBytes sent)
      (good.length = n.toNat → rest ≠ [] → parseBulletin heard (sender :: s0 :: s1 :: n :: (bytes ++ rest)) = none) ∧
      (good.length < n.toNat → parseItem heard rest = none →
        parseBulletin heard (sender :: s0 :: s1 :: n :: (bytes ++ rest)) = none))) ∧
  (∀ heard : Time,
    let bad := fun bs : List Byte => parseItem heard bs = none
    let station := fun b : Byte => 1 ≤ b.toNat ∧ b.toNat ≤ 240
    bad [] ∧
    (∀ (t : Byte) (rest : List Byte), t.toNat = 0 ∨ 4 < t.toNat → bad (t :: rest)) ∧
    (∀ (i : Item) (sent : Time) (a b : List Byte), i.sendable = true → itemBytes sent i = a ++ b → b ≠ [] → bad a) ∧
    (∀ (o p s0 s1 c0 c1 k sh st occ a0 a1 x y z : Byte) (rest : List Byte),
      (¬ station o ∨ 31 < p.toNat ∨ k.toNat = 0 ∨ 17 < k.toNat ∨ sh.toNat % 8 = 0 ∨ st.toNat % 4 = 0 →
        bad ([0x01, o, p, s0, s1, c0, c1, k, sh, st, occ, a0, a1] ++ rest)) ∧
      (st.getLsbD 2 = true → ¬ station x → bad ([0x01, o, p, s0, s1, c0, c1, k, sh, st, occ, a0, a1, x, y] ++ rest)) ∧
      (st.getLsbD 2 = true → st.getLsbD 3 = true → 16 < z.toNat →
        bad ([0x01, o, p, s0, s1, c0, c1, k, sh, st, occ, a0, a1, x, y, z] ++ rest)) ∧
      (st.getLsbD 2 = false → st.getLsbD 3 = true → 16 < z.toNat →
        bad ([0x01, o, p, s0, s1, c0, c1, k, sh, st, occ, a0, a1, z] ++ rest))) ∧
    (∀ (o p s0 s1 c0 c1 st op hop : Byte) (rest : List Byte),
      ¬ station o ∨ 31 < p.toNat ∨ ¬ station st ∨ 7 < hop.toNat → bad ([0x02, o, p, s0, s1, c0, c1, st, op, hop] ++ rest)) ∧
    (∀ (o s0 s1 k sh st n : Byte) (rest : List Byte),
      ¬ station o ∨ k.toNat = 0 ∨ 17 < k.toNat ∨ sh.toNat % 8 = 0 ∨ st.toNat % 4 = 0 ∨ n.toNat < 2 ∨ 8 < n.toNat →
        bad ([0x03, o, s0, s1, k, sh, st, n] ++ rest)) ∧
    (∀ (o s0 s1 k sh st n : Byte) (points : List (Byte × Byte × Byte × Byte × Byte)) (rest : List Byte),
      points.length = n.toNat → (∃ x ∈ points, 31 < x.1.toNat) ∨ ¬ (points.map (·.1)).Nodup →
        bad ([0x03, o, s0, s1, k, sh, st, n] ++
          points.flatMap (fun x => [x.1, x.2.1, x.2.2.1, x.2.2.2.1, x.2.2.2.2]) ++ rest)) ∧
    (∀ (o p s0 s1 hop sev : Byte) (rest : List Byte),
      ¬ station o ∨ p.toNat ≠ 254 ∨ 7 < hop.toNat ∨ sev.toNat ≠ 1 → bad ([0x04, o, p, s0, s1, hop, sev] ++ rest)))

/-- A bulletin's characters, from the lead-in to the CRC, taken one by one under CD by a station that hunts, end as the
bulletin handed on to the roll, the view and the queue (R145 to R152). -/
def Obligations.BulletinSentIsBulletinHeard : Prop :=
  ∀ (s : State) (rest : List Instr) (sender : Nat) (start : Half) (sent : Time) (items : List Item),
    s.live = true → s.trunk.blind = false → s.trunk.cd = true → s.trunk.rx = none →
    1 ≤ sender → sender ≤ 240 → items.length ≤ 12 → (∀ i ∈ items, i.sendable = true) →
    (items.map (·.size)).sum ≤ 236 →
    let frame := bulletinFrame (bulletinBody sender start sent items)
    let heard := s.toCounty.hearBulletin s.ctx sender start (items.map (Item.asHeard sent s.now))
    Host.Core.run core frame.length
        { s with pending := frame.map (fun c => .trunkCharacterReceived c false) ++ rest } =
      .next (State.settle { s with toCounty := heard, pending := rest })

/-- Every step keeps the access state: a legal pair of enable and access state, no access left unopened, a slot running
exactly in DEFER on a clear channel, no frame taken while blind (R150, R153, R155 to R159). -/
def Obligations.AccessStateStaysLegal : Prop :=
  ∀ s t : State, s.accessOk = true → s.slotOk = true → (s.trunk.blind = true → s.trunk.rx = none) →
    step s = .next t → t.accessOk = true ∧ t.slotOk = true ∧ (t.trunk.blind = true → t.trunk.rx = none)

/-- TRUNK ENABLE, TRUNK DISABLE and TRUNK FLUSH by the enable and access states; a flush marks the own FAULTs and COMPACT
points it drops and makes the resync pass (R140, R158 to R160). The pass takes the own entries whose mark stands as it begins,
in view order, clears each mark and offers the entry's news as RESYNC, RETIRED as CLEARED (R135). It is made after a removal
that leaves condensed mode or empties the queue, and after an offer whose removals left condensed mode, as an own ALIVE's that
takes the place of an older one at the threshold (R132, R135). The model's choices in it: replies show the state as the effect
leaves it (log 12); the pass comes once an offer has been handled whole, and none starts inside another (log 14). -/
def Obligations.TrunkEnableDisableFlush : Prop :=
  (∀ (c : Ctx) (roll : Vector RollRecord 240) (view : List Entry) (q after : QueueSide) (x : QItem),
    let offered := fun (q : QueueSide) (e : Entry) => offerCore c roll view
      ⟨.fault ⟨e.origin, e.point, e.stamp.getD ⟨0, 0⟩, e.kind, e.severity,
        if e.state = .active then .active else if e.state = .inhibited then .inhibited else .cleared, e.occurrences,
        e.age c.now, c.now, c.cfg.hopBudget, e.ack, e.affected⟩, e.severity, .resync, 0, 0⟩
      { q with unsent := tset q.unsent e.point false }
    resyncPass c roll view q = (view.filter fun e => e.own && tget q.unsent e.point false).foldl offered q ∧
    (let tested := testCondensed c after
     (q.condensed = true ∧ tested.condensed = false ∨ q.queue ≠ [] ∧ after.queue = [] →
       afterChange c roll view q after = resyncPass c roll view tested) ∧
     (¬ (q.condensed = true ∧ tested.condensed = false ∨ q.queue ≠ [] ∧ after.queue = []) →
       afterChange c roll view q after = tested)) ∧
    (q.condensed = false → offerItem c roll view x q = offerCore c roll view x q) ∧
    (∀ a y b start older hop hop', c.mode = .run → q.condensed = true → q.queue = a ++ y :: b →
      queueKeysOnce q.queue = true → x = ⟨.alive ⟨c.number, start, hop⟩, 1, .own, 0, 0⟩ →
      y.item = .alive ⟨c.number, older, hop'⟩ → start = older ∨ Stamp.takenNewer ⟨start, 0⟩ ⟨older, 0⟩ = true →
      totalCharge (a ++ b) ≤ 64 * c.cfg.condenseOff → c.cfg.condenseOff < c.cfg.condenseOn →
      let l := enqueue (a ++ b) { x with seq := q.nextSeq }
      totalCharge l ≤ 2048 →
      offerItem c roll view x q = resyncPass c roll view (testCondensed c
        ({ q with queue := l, nextSeq := q.nextSeq + 1, condensed := false }.count .itemsQueued)))) ∧
  ∀ s : State, s.ready = true → s.attentionOk = true →
    let code := fun e : EnableState => (match e with | .disabled => 0 | .enabled => 1 | .draining => 2 : Byte)
    let acode := fun a : AccessState =>
      (match a with | .off => 0 | .idle => 1 | .defer => 2 | .keyup => 3 | .send => 4 : Byte)
    let both := fun t : Trunk => [code t.enable, acode t.access]
    (s.mode = .listen → exec .trunkEnable s = .next (s.replied 0x0E .wrongState [])) ∧
    (s.mode = .run → s.trunk.enable = .draining → exec .trunkEnable s = .next (s.replied 0x0E .busy [])) ∧
    (s.mode = .run → s.trunk.enable = .enabled →
      exec .trunkEnable s = .next (s.replied 0x0E .ok [1, acode s.trunk.access])) ∧
    (s.mode = .run → s.trunk.enable = .disabled →
      let t := State.settle { s with trunk := { s.trunk with enable := .enabled, access := .idle } }
      exec .trunkEnable s = .next (t.replied 0x0E .ok (both t.trunk))) ∧
    (s.trunk.enable = .enabled → s.trunk.access = .keyup ∨ s.trunk.access = .send →
      let t := { s.trunk with enable := .draining }
      exec .trunkDisable s = .next (State.replied { s with trunk := t } 0x0F .ok (both t))) ∧
    (s.trunk.enable = .enabled → s.trunk.access = .idle ∨ s.trunk.access = .defer →
      let t := { s.trunk with enable := .disabled, access := .off, count := 0, slot := none }
      exec .trunkDisable s = .next (State.replied { s with trunk := t } 0x0F .ok [0, 0])) ∧
    (s.trunk.enable ≠ .enabled → exec .trunkDisable s = .next (s.replied 0x0F .ok (both s.trunk))) ∧
    (s.trunk.enable ≠ .disabled → exec .trunkFlush s = .next (s.replied 0x10 .wrongState [])) ∧
    (s.trunk.enable = .disabled →
      let marks := markUnsent s.ctx s.queue s.unsent
      let q := resyncPass s.ctx s.roll s.view { s.toQueueSide with queue := [], condensed := false, unsent := marks }
      (∀ p, p < 32 → (tget marks p false = true ↔
        tget s.unsent p false = true ∨ ∃ x ∈ s.queue, p ∈ ownPoints s.ctx x.item)) ∧
      exec .trunkFlush s = .next (State.replied { s with toQueueSide := q } 0x10 .ok
        (0 :: halfBytes (BitVec.ofNat 16 (totalCharge q.queue)))) ∧
      ((∀ p, p < 32 → tget marks p false = false) → q.queue = []))

/-! ## The Bulletin Queue (chapter 8) -/

/-- An offer of keys no queued item covers, outside condensed mode: it joins behind every item of its severity or a higher
one; where it does not fit, items of lower severity go from the back, as few as it takes, or, where they would not make
room, it is dropped alone; each loss counts once and marks the own points it covers (R125, R126, R130 to R132). -/
def Obligations.OfferJoinsEvictsOrDrops : Prop :=
  ∀ (c : Ctx) (roll : Vector RollRecord 240) (view : List Entry) (x : QItem) (q : QueueSide),
    c.mode = .run → olderThanRoll c roll x.item = false → q.condensed = false → queueOrdered q.queue = true →
    totalCharge q.queue ≤ 2048 → (∀ p ∈ x.item.points, covering q.queue x.item.origin p = none) →
    (∀ n, x.item = .compact n → 2 ≤ n.points.length) →
    let y := { x with seq := q.nextSeq }
    let after := fun (l lost : List QItem) =>
      ({ q with queue := l, nextSeq := q.nextSeq + 1, unsent := markUnsent c lost q.unsent } : QueueSide)
    let lower := totalCharge (q.queue.filter fun z => z.severity < x.severity)
    (∀ a b, q.queue = a ++ b → (∀ z ∈ a, x.severity ≤ z.severity) → (∀ z ∈ b, z.severity < x.severity) →
      totalCharge q.queue + x.item.charge ≤ 2048 →
      offerCore c roll view x q = testCondensed c ((after (a ++ y :: b) []).count .itemsQueued)) ∧
    (2048 < totalCharge q.queue + x.item.charge → totalCharge q.queue + x.item.charge ≤ 2048 + lower →
      ∃ a b lost, q.queue = a ++ b ++ lost ∧ lost ≠ [] ∧ (∀ z ∈ a, x.severity ≤ z.severity) ∧
        (∀ z ∈ b ++ lost, z.severity < x.severity) ∧ totalCharge (a ++ y :: b) ≤ 2048 ∧
        (∀ z ∈ lost.head?, 2048 < totalCharge (a ++ y :: b) + z.item.charge) ∧
        offerCore c roll view x q =
          testCondensed c (((after (a ++ y :: b) lost.reverse).count .droppedFull lost.length).count .itemsQueued)) ∧
    (2048 + lower < totalCharge q.queue + x.item.charge →
      offerCore c roll view x q = testCondensed c ((after q.queue [x]).count .droppedFull)) ∧
    (∀ (lost : List QItem) p, p < 32 → (tget (markUnsent c lost q.unsent) p false = true ↔
      tget q.unsent p false = true ∨ ∃ z ∈ lost, p ∈ ownPoints c z.item))

/-- An offered FAULT meets the queued FAULT of its key, outside condensed mode: an older offer, and a REFRESH or CORRECTION
of the same stamp, is not queued; any other takes its place as the newest of its severity, keeping an ack part of the same
stamp. An ACK of the same stamp merges into the FAULT in place, or finds it acknowledged (R128, R129). A queued COMPACT that
covers the key of a FAULT taken as newer, or of its stamp, loses the point: it stays a COMPACT, becomes a FAULT in its place,
or goes; an ACK of the point's stamp splits it out as an acknowledged FAULT directly behind the COMPACT, or is dropped where
the split cannot be fitted in. A COMPACT offer loses the points whose queued item is newer, or of the same stamp against a
REFRESH or CORRECTION: one left is offered as a FAULT, none is not queued (R125, R128, R129; the queue record of the FAULT
split out is log 16, the occurrences of a point whose entry is gone log 30). -/
def Obligations.OfferMeetsQueuedFault : Prop :=
  (∀ (c : Ctx) (roll : Vector RollRecord 240) (view : List Entry) (x y : QItem) (n : CompactNews) (q : QueueSide),
    let single := fun (n : CompactNews) (z : CompactPoint) (ack : Option Ack) =>
      Item.fault ⟨n.origin, z.point, ⟨n.start, z.change⟩, n.kind, n.severity, n.state,
        match findEntry view n.origin z.point with
          | some e => e.occurrences
          | none => if n.state = .active then 1 else 0, z.age, z.asOf, n.hop, ack, none⟩
    let without := fun p : Nat => (match n.points.filter (fun z => z.point != p) with
      | [] => []
      | [z] => [{ y with item := single n z none }]
      | l => [{ y with item := .compact { n with points := l } }] : List QItem)
    (∀ a b st, c.mode = .run → q.condensed = false → queueKeysOnce q.queue = true → q.queue = a ++ y :: b →
      y.item = .compact n → olderThanRoll c roll x.item = false →
      (∀ f, x.item = .fault f → y.stampFor f.origin f.point = some st →
        st = f.stamp ∧ x.purpose ≠ .refresh ∧ x.purpose ≠ .correction ∨ st ≠ f.stamp ∧ f.stamp.takenNewer st = true →
        let l := enqueue (a ++ without f.point ++ b) { x with seq := q.nextSeq }
        totalCharge l ≤ 2048 →
        offerCore c roll view x q =
          testCondensed c ({ q with queue := l, nextSeq := q.nextSeq + 1 }.count .itemsQueued)) ∧
      (∀ k z, x.item = .ack k → x.purpose = .own ∨ x.purpose = .relay → y.stampFor k.origin k.point = some k.stamp →
        n.points.find? (·.point == k.point) = some z →
        let l := a ++ without k.point ++ { y with item := single n z (some k.ack) } :: b
        (totalCharge l ≤ 2048 →
          offerCore c roll view x q = testCondensed c ({ q with queue := l }.count .itemsQueued)) ∧
        (2048 + totalCharge (l.filter fun z => z.severity < x.severity) < totalCharge l →
          offerCore c roll view x q = testCondensed c (q.count .droppedFull)))) ∧
    (x.item = .compact n →
      let free := n.points.filter fun z =>
        match (covering q.queue n.origin z.point).bind (·.stampFor n.origin z.point) with
        | none => true
        | some st => if st = ⟨n.start, z.change⟩ then !(x.purpose == .refresh || x.purpose == .correction)
          else Stamp.takenNewer ⟨n.start, z.change⟩ st
      (free = [] → offerCore c roll view x q = q) ∧
      (∀ z, free = [z] → offerCore c roll view x q = offerCore c roll view { x with item := single n z none } q) ∧
      (2 ≤ free.length →
        offerCore c roll view x q = offerCore c roll view { x with item := .compact { n with points := free } } q))) ∧
  ∀ (c : Ctx) (roll : Vector RollRecord 240) (view : List Entry) (x y : QItem) (g : FaultNews) (q : QueueSide)
    (a b : List QItem),
    c.mode = .run → q.condensed = false → queueKeysOnce q.queue = true → q.queue = a ++ y :: b → y.item = .fault g →
    olderThanRoll c roll x.item = false →
    (∀ f, x.item = .fault f → f.origin = g.origin → f.point = g.point →
      (f.stamp ≠ g.stamp → f.stamp.takenNewer g.stamp = false → offerCore c roll view x q = q) ∧
      (f.stamp = g.stamp → x.purpose = .refresh ∨ x.purpose = .correction → offerCore c roll view x q = q) ∧
      (f.stamp ≠ g.stamp ∧ f.stamp.takenNewer g.stamp = true ∨
          f.stamp = g.stamp ∧ x.purpose ≠ .refresh ∧ x.purpose ≠ .correction →
        let f' := if f.ack = none ∧ f.stamp = g.stamp then { f with ack := g.ack } else f
        let l := enqueue (a ++ b) { x with item := .fault f', seq := q.nextSeq }
        totalCharge l ≤ 2048 →
        offerCore c roll view x q =
          testCondensed c ({ q with queue := l, nextSeq := q.nextSeq + 1 }.count .itemsQueued))) ∧
    (∀ k, x.item = .ack k → x.purpose = .own ∨ x.purpose = .relay → k.origin = g.origin → k.point = g.point →
      k.stamp = g.stamp →
      (g.ack = none → offerCore c roll view x q = testCondensed c
        ({ q with queue := a ++ { y with item := .fault { g with ack := some k.ack } } :: b }.count .itemsQueued)) ∧
      (g.ack ≠ none → offerCore c roll view x q = testCondensed c q))

/-- Condensed mode: entered at 64 × condense-on and left at 64 × condense-off; in it every REFRESH is refused, and a RELAY or
CORRECTION below the floor, each counted once; an OWN or RESYNC FAULT without optional parts merges into the target nearest
the head, in place, where the increase fits (R132 to R134; that the merge comes before the replacements without exception is
log 15). -/
def Obligations.CondensedModeRefusesAndMerges : Prop :=
  ∀ (c : Ctx) (roll : Vector RollRecord 240) (view : List Entry) (x : QItem) (f : FaultNews) (q : QueueSide),
    (64 * c.cfg.condenseOn ≤ totalCharge q.queue → (testCondensed c q) = { q with condensed := true }) ∧
    (totalCharge q.queue < 64 * c.cfg.condenseOn → totalCharge q.queue ≤ 64 * c.cfg.condenseOff →
      testCondensed c q = { q with condensed := false }) ∧
    (totalCharge q.queue < 64 * c.cfg.condenseOn → 64 * c.cfg.condenseOff < totalCharge q.queue →
      testCondensed c q = q) ∧
    (c.mode = .run → q.condensed = true → x.item = .fault f → olderThanRoll c roll x.item = false →
      covering q.queue f.origin f.point = none →
      (x.purpose = .refresh ∨ (x.purpose = .relay ∨ x.purpose = .correction) ∧ x.severity < c.cfg.condenseFloor →
        offerCore c roll view x q = testCondensed c (q.count .droppedCondensed)) ∧
      (∀ a t b, x.purpose = .own ∨ x.purpose = .resync → f.origin = c.number → f.ack = none → f.affected = none →
        q.queue = a ++ t :: b → (∀ z ∈ a, mergeTarget c f z = false) →
        let same := fun (o : Nat) (st : Half) (k : Kind) (sev : Nat) (i : ItemState) =>
          o = c.number ∧ st = f.stamp.start ∧ k = f.kind ∧ sev = f.severity ∧ i = f.state
        let pt : CompactPoint := ⟨f.point, f.stamp.change, f.age, f.asOf⟩
        let becomes := fun n : CompactNews =>
          let t' : QItem := { t with item := .compact n, purpose := .own, heard := 0 }
          totalCharge (a ++ t' :: b) ≤ 2048 →
          offerCore c roll view x q = testCondensed c ({ q with queue := a ++ t' :: b }.count .itemsQueued)
        (∀ n, t.item = .compact n → same n.origin n.start n.kind n.severity n.state → n.points.length < 8 →
          becomes { n with hop := c.cfg.hopBudget, points := n.points ++ [pt] }) ∧
        (∀ g, t.item = .fault g → g.ack = none → g.affected = none →
          same g.origin g.stamp.start g.kind g.severity g.state →
          becomes ⟨g.origin, g.stamp.start, g.kind, g.severity, g.state, c.cfg.hopBudget,
            [⟨g.point, g.stamp.change, g.age, g.asOf⟩, pt]⟩)))

/-- A duplicate notice counts on the queued relay of its stamp, or withdraws it at the suppression limit, and touches nothing
else; a correction check offers the entry's news at its stamp unless the entry is LOCAL_ONLY, was sent within the holdoff,
or stands queued at that stamp (R136, R137). -/
def Obligations.NoticesAndCorrections : Prop :=
  ∀ (c : Ctx) (k : County) (o p : Nat) (st : Stamp),
    (∀ a x b, k.queue = a ++ x :: b → queueKeysOnce k.queue = true → x.stampFor o p = some st → x.purpose = .relay →
      (x.heard < c.cfg.suppression →
        k.notice c o p st [] = { k with queue := a ++ { x with heard := x.heard + 1 } :: b }) ∧
      (c.cfg.suppression ≤ x.heard → k.notice c o p st [] = { k with
        toQueueSide := afterChange c k.roll k.view k.toQueueSide
          ({ k.toQueueSide with queue := a ++ b }.count .relaysSuppressed) })) ∧
    ((∀ x ∈ k.queue, x.stampFor o p = some st → x.purpose ≠ .relay) → k.notice c o p st [] = k) ∧
    (findEntry k.view o p = none → k.correct c o p = k) ∧
    (∀ e, findEntry k.view o p = some e →
      let stands := ∃ x, covering k.queue o p = some x ∧ x.stampFor o p = e.stamp
      let sentLately := ∃ t, e.lastSent = some t ∧ since c.now t < c.cfg.holdoff
      (e.localOnly = true ∨ sentLately ∨ stands → e.stamp ≠ none → k.correct c o p = k) ∧
      (∀ s, e.stamp = some s → e.localOnly = false → ¬ sentLately → ¬ stands →
        k.correct c o p = k.offer c ⟨.fault ⟨e.origin, e.point, s, e.kind, e.severity,
          if e.state = .active then .active else if e.state = .inhibited then .inhibited else .cleared, e.occurrences,
          e.age c.now, c.now, c.cfg.hopBudget, e.ack, e.affected⟩, e.severity, .correction, 0, 0⟩))

/-- Every step keeps the total charge within 2048 bytes (R123), and keeps the queue in order of severity with no key covered
twice (R125, R128). -/
def Obligations.QueueKeepsChargeOrderKeys : Prop :=
  (∀ s t : State, s.chargeOk = true → step s = .next t → t.chargeOk = true) ∧
  (∀ s t : State, s.queueOk = true → step s = .next t → t.queueOk = true)

/-! ## The Fault View (chapter 6) -/

/-- The merge of a heard FAULT by what the view holds for its key: created, a tombstone, newer, of the same stamp, or
outdated (R92 to R97, Table 6.5). -/
def Obligations.MergeFaultByStamp : Prop :=
  ∀ (c : Ctx) (f : FaultNews) (v : ViewSide),
    let r := mergeFault c false f v
    let hold := c.now + BitVec.ofNat 32 (60 * c.cfg.retireHold)
    let affected := if f.kind = .mainsLost then f.affected else none
    let fresh := fun (st : EntryState) (retire : Option Time) =>
      ({ origin := f.origin, point := f.point, kind := f.kind, severity := f.severity, state := st, stamp := some f.stamp,
         occurrences := f.occurrences, ageBase := f.age, baseTime := c.now, lastHeard := c.now, ack := f.ack,
         affected := affected, own := false, localOnly := false, stale := false, endedByRestart := false,
         retireTime := retire, lastSent := none } : Entry)
    let holds := fun e : Entry => r.1 = { v with view := r.1.view } ∧ findEntry r.1.view f.origin f.point = some e ∧
      ∀ o p, ¬ (o = f.origin ∧ p = f.point) → findEntry r.1.view o p = findEntry v.view o p
    (findEntry v.view f.origin f.point = none →
      r.2 = .created ∧
      (v.view.length < 384 → holds (match f.state with
        | .active => fresh .active none
        | .inhibited => fresh .inhibited none
        | .cleared => fresh .retired (some hold))) ∧
      (384 ≤ v.view.length → f.state = .cleared → r.1 = v) ∧
      (384 ≤ v.view.length → f.state = .active → r.1 = (createEntry c (fresh .active none) v).1) ∧
      (384 ≤ v.view.length → f.state = .inhibited → r.1 = (createEntry c (fresh .inhibited none) v).1)) ∧
    (∀ e st, findEntry v.view f.origin f.point = some e → e.stamp = some st →
      let renewed := { e with
        kind := f.kind, severity := f.severity, stamp := some f.stamp, occurrences := f.occurrences, affected := affected,
        ageBase := f.age, baseTime := c.now, lastHeard := c.now, stale := false, endedByRestart := false }
      let again := { e with lastHeard := c.now, stale := false }
      (st ≠ f.stamp → f.stamp.takenNewer st = false → r = (v, .outdated)) ∧
      (st ≠ f.stamp → f.stamp.takenNewer st = true → r.2 = .newer ∧
        (f.state = .active → holds { renewed with state := .active, ack := f.ack, retireTime := none }) ∧
        (f.state = .inhibited → holds { renewed with state := .inhibited, ack := f.ack, retireTime := none }) ∧
        (f.state = .cleared → f.ack ≠ none →
          holds { renewed with state := .retired, ack := f.ack, retireTime := some hold }) ∧
        (f.state = .cleared → f.ack = none →
          (e.state = .active ∧ e.ack ≠ none ∨ e.state = .inhibited ∨ e.state = .retired →
            holds { renewed with state := .retired, retireTime := some hold }) ∧
          (e.state = .active ∧ e.ack = none ∨ e.state = .cleared →
            holds { renewed with state := .cleared, ack := none, retireTime := none }))) ∧
      (st = f.stamp →
        (∀ a, f.ack = some a → e.ack = none → r.2 = .ackApplied ∧
          holds (if e.state = .cleared then { again with ack := some a, state := .retired, retireTime := some hold }
            else { again with ack := some a })) ∧
        (f.ack = none ∨ e.ack ≠ none → holds again ∧
          (0 < c.cfg.refresh → 30 * c.cfg.refresh ≤ since c.now e.lastHeard → r.2 = .renewal) ∧
          (c.cfg.refresh = 0 ∨ since c.now e.lastHeard < 30 * c.cfg.refresh → r.2 = .duplicate))))

/-- The merge of an ACK by what the view holds for its key (R99, Table 6.7), and the occurrences of a COMPACT point (R98). -/
def Obligations.MergeAckAndCompactPoint : Prop :=
  (∀ (c : Ctx) (a : AckNews) (v : ViewSide),
    let r := mergeAckItem c a v
    (findEntry v.view a.origin a.point = none → r = (v, .unplaced)) ∧
    (∀ e st, findEntry v.view a.origin a.point = some e → e.stamp = some st →
      (st ≠ a.stamp → a.stamp.takenNewer st = true → r = (v, .unplaced)) ∧
      (st ≠ a.stamp → a.stamp.takenNewer st = false → r = (v, .outdated)) ∧
      (st = a.stamp → e.ack ≠ none → r = (v, .duplicate)) ∧
      (st = a.stamp → e.ack = none → r.2 = .ackApplied ∧ r.1 = { v with view := r.1.view } ∧
        (findEntry r.1.view a.origin a.point = some (if e.state = .cleared then
          { e with ack := some a.ack, state := .retired,
                   retireTime := some (c.now + BitVec.ofNat 32 (60 * c.cfg.retireHold)) }
          else { e with ack := some a.ack })) ∧
        ∀ o p, ¬ (o = a.origin ∧ p = a.point) → findEntry r.1.view o p = findEntry v.view o p))) ∧
  (∀ (c : Ctx) (f : FaultNews) (v : ViewSide), viewOrdered v.view = true → f.ack = none → f.affected = none →
    let n := match findEntry v.view f.origin f.point with
      | none => if f.state = .active then 1 else 0
      | some e => if f.state = .active ∧ e.state ≠ .active then min 255 (e.occurrences + 1) else e.occurrences
    mergeFault c true f v = mergeFault c false { f with occurrences := n } v)

/-- Creation in a full view: an own entry takes the place of another that is not own; any other takes that of the RETIRED
entry of earliest retire time, or of one of lower severity by Table 6.8, or is refused with VIEW_OVERFLOW latched; an
eviction and a refusal each count once (R104 to R106). -/
def Obligations.FullViewEvictsOrRefuses : Prop :=
  ∀ (c : Ctx) (e : Entry) (v : ViewSide), 384 ≤ v.view.length → viewOrdered v.view = true →
    findEntry v.view e.origin e.point = none →
    let candidates := v.view.filter fun x => !x.own
    let retired := candidates.filter fun x => x.state == .retired
    let lower := candidates.filter fun x => e.own || decide (x.severity < e.severity)
    let replaced := fun x : Entry => createEntry c e v = (ViewSide.count
      { v with view := putEntry (removeEntry v.view x.origin x.point) e } .viewEvictions, true)
    let time := fun x : Entry => ((x.retireTime.getD c.now) - c.now).toInt
    let keyAbove := fun x y : Entry => y.origin < x.origin ∨ y.origin = x.origin ∧ y.point < x.point
    let rank := fun x : Entry => (match x.state with | .cleared => 0 | .active => 1 | .inhibited => 2 | .retired => 3 : Nat)
    (retired ≠ [] → ∃ x ∈ retired, replaced x ∧ ∀ y ∈ retired, y ≠ x →
      time x < time y ∨ time x = time y ∧ keyAbove x y) ∧
    (retired = [] → lower ≠ [] → ∃ x ∈ lower, replaced x ∧ ∀ y ∈ lower, y ≠ x →
      x.severity < y.severity ∨ x.severity = y.severity ∧
        (x.stale = true ∧ y.stale = false ∨ x.stale = y.stale ∧
          (rank x < rank y ∨ rank x = rank y ∧
            (x.age c.now < y.age c.now ∨ x.age c.now = y.age c.now ∧ keyAbove x y)))) ∧
    (retired = [] → lower = [] →
      createEntry c e v = (ViewSide.count { v with viewOverflow := true } .viewRefusals, false))

/-- Stamp order: by start count, then by change number, each by the difference modulo 65536 in 1..32767; a difference of
32768 is neither newer nor older, and in a merge the item's stamp is taken as newer (R88). -/
def Obligations.StampOrderIsSerial : Prop :=
  (∀ a b : Stamp, a.newer b = true ↔
    (let d := (a.start - b.start).toNat; 1 ≤ d ∧ d ≤ 32767) ∨
    a.start = b.start ∧ (let d := (a.change - b.change).toNat; 1 ≤ d ∧ d ≤ 32767)) ∧
  (∀ a b : Stamp, a.newer b = true → b.newer a = false) ∧
  (∀ a b : Stamp, a ≠ b → a.newer b = false → b.newer a = false →
    (a.start - b.start).toNat = 32768 ∨ a.start = b.start ∧ (a.change - b.change).toNat = 32768) ∧
  (∀ a b : Stamp, a.takenNewer b = true ↔ a.newer b = true ∨ a ≠ b ∧ b.newer a = false) ∧
  Stamp.newer ⟨7, 4⟩ ⟨7, 65530⟩ = true ∧ Stamp.newer ⟨8, 1⟩ ⟨7, 900⟩ = true

/-- The dispatch order: the entries but RETIRED ones, each once, by group, then severity, then age, the higher first, then
origin and point (R107, Table 6.9). -/
def Obligations.DispatchOrderRanksEntries : Prop :=
  ∀ (now : Time) (v : List Entry), viewOrdered v = true →
    (dispatchOrder now v).Perm (v.filter fun e => e.state != .retired) ∧
    (dispatchOrder now v).Pairwise fun a b =>
      let group := fun e : Entry => (match e.state with
        | .active => if e.ack = none then 1 else 3
        | .cleared => 2
        | .inhibited => 4
        | .retired => 5 : Nat)
      group a < group b ∨ group a = group b ∧
        (b.severity < a.severity ∨ a.severity = b.severity ∧
          (b.age now < a.age now ∨ a.age now = b.age now ∧
            (a.origin < b.origin ∨ a.origin = b.origin ∧ a.point < b.point)))

/-- Every step keeps the view at most 384 entries, in key order, no key twice (R85), and keeps the attention output at its
condition: an unacknowledged ACTIVE or CLEARED entry above the level (R164). -/
def Obligations.ViewOrderedAttentionFollows : Prop :=
  (∀ s t : State, s.viewOk = true → step s = .next t → t.viewOk = true) ∧
  (∀ s t : State, s.attentionOk = true → step s = .next t → t.attentionOk = true)

/-- MINUTE_SCAN in RUN and LISTEN: RETIRED entries whose retire time has come are removed, entries long unheard are marked
STALE, and the others stand as they were (R101, R102). -/
def Obligations.MinuteScanRemovesAndMarks : Prop :=
  ∀ s : State, s.live = true → s.viewOk = true →
    ∃ t, exec .minuteScan s = .next t ∧ t = State.settle { s with view := t.view } ∧
      (∀ o p, findEntry s.view o p = none → findEntry t.view o p = none) ∧
      ∀ o p e, findEntry s.view o p = some e →
        let due := e.state = .retired ∧ ∃ r, e.retireTime = some r ∧ (r - s.now).toInt ≤ 0
        let unheard := 0 < s.cfg.refresh ∧ e.own = false ∧ e.localOnly = false ∧
          (e.state = .active ∨ e.state = .inhibited) ∧ 180 * s.cfg.refresh ≤ since s.now e.lastHeard
        (due → findEntry t.view o p = none) ∧
        (¬ due → unheard → findEntry t.view o p = some { e with stale := true }) ∧
        (¬ due → ¬ unheard → findEntry t.view o p = some e)

/-! ## Station Roll (chapter 7) -/

/-- SILENCE_CHECK in RUN and LISTEN, with room in the view: each known station but this one, not yet silent and unheard for
the silence limit, is declared silent with its entry (station, 255) ACTIVE, new or re-opened; every other record and entry
stands (R119). -/
def Obligations.SilenceCheckDeclares : Prop :=
  ∀ s : State, s.live = true → viewOrdered s.view = true → s.view.length ≤ 144 →
    ∃ t, exec .silenceCheck s = .next t ∧ t = State.settle { s with roll := t.roll, view := t.view } ∧
      (∀ o p, p ≠ 255 → findEntry t.view o p = findEntry s.view o p) ∧
      ∀ o, 1 ≤ o → o ≤ 240 →
        let r := rollGet s.roll o
        let due := r.newest ≠ none ∧ o ≠ s.number ∧ r.silent = false ∧ 0 < s.cfg.silence ∧
          60 * s.cfg.silence ≤ since s.now r.lastHeard
        (¬ due → rollGet t.roll o = r ∧ findEntry t.view o 255 = findEntry s.view o 255) ∧
        (due → rollGet t.roll o = { r with silent := true } ∧
          findEntry t.view o 255 = some (match findEntry s.view o 255 with
            | none =>
              { origin := o, point := 255, kind := .stationSilent, severity := s.cfg.severityOf .stationSilent,
                state := .active, stamp := none, occurrences := 1, ageBase := 0, baseTime := s.now, lastHeard := s.now,
                ack := none, affected := none, own := false, localOnly := true, stale := false, endedByRestart := false,
                retireTime := none, lastSent := none }
            | some e => if e.state = .active then e else
              { e with state := .active, ack := none, retireTime := none, occurrences := min 255 (e.occurrences + 1),
                       ageBase := 0, baseTime := s.now }))

/-- An epoch advance: the record takes the new count, the origin's entries of an older start count close by Table 7.2, and
its older items leave the queue uncounted; nothing of another origin changes (R114, R115). A start count that differs from
the new one by exactly 32768 counts as older here: the model's reading, log 17. No unsent mark stands, so no resync pass
queues anything. -/
def Obligations.EpochAdvanceClosesAndPurges : Prop :=
  ∀ (c : Ctx) (o : Nat) (start : Half) (k : County), 1 ≤ o → o ≤ 240 → (∀ p, tget k.unsent p false = false) →
    let t := k.advanceEpoch c o start
    let older := fun x : Half => let d := (start - x).toNat; 1 ≤ d ∧ d ≤ 32768
    t = { k with toQueueSide := t.toQueueSide, view := t.view, roll := t.roll } ∧
    rollGet t.roll o = { rollGet k.roll o with newest := some start } ∧
    (∀ p, p ≠ o → rollGet t.roll p = rollGet k.roll p) ∧
    t.toQueueSide = { k.toQueueSide with
      queue := k.queue.filter fun x => !(x.item.origin == o && decide (older x.item.start)), condensed := t.condensed } ∧
    (∀ a p, findEntry k.view a p = none → findEntry t.view a p = none) ∧
    ∀ a p e, findEntry k.view a p = some e →
      let closes := a = o ∧ e.localOnly = false ∧ ∃ st, e.stamp = some st ∧ older st.start
      let closed := { e with stale := false, ageBase := 0, baseTime := c.now }
      let hold := c.now + BitVec.ofNat 32 (60 * c.cfg.retireHold)
      (¬ closes ∨ e.state = .cleared ∨ e.state = .retired → findEntry t.view a p = some e) ∧
      (closes → e.state = .active ∧ e.ack ≠ none ∨ e.state = .inhibited →
        findEntry t.view a p = some { closed with state := .retired, retireTime := some hold }) ∧
      (closes → e.state = .active → e.ack = none →
        findEntry t.view a p = some { closed with state := .cleared, endedByRestart := true })

/-- Evidence of life: last heard becomes now, a silent record is cleared, and its entry (O, 255), ACTIVE, becomes CLEARED or,
acknowledged, RETIRED (R116). A heard item of another origin: its start count is taken by the roll (R112); one older than the
roll's newest is IGNORED and counted (R90). A FAULT's outcome goes on as evidence of life, as a relay of the content heard
with a hop less and the ack part the view holds for the stamp, as a duplicate notice, or as a stale-heard count with the
correction check (R91, R97, R127). An ACK's goes on as a relay with the entry's severity, as a notice or as a count (R99,
R127). A COMPACT's points are merged and handed on one by one, and those created, newer or renewed are relayed: as a COMPACT,
one alone as a FAULT (R89, R98, R127). An ALIVE is NEW where its own start count, or the bulletin before it, made the station
known or advanced its epoch, RENEWAL where the station was last heard half a presence interval before the bulletin, else
DUPLICATE (R118). The IGNORED COMPACT counted once and its notices told apart are log 23. -/
def Obligations.HeardNewsHandedOn : Prop :=
  (∀ (c : Ctx) (o : Nat) (k : County), 1 ≤ o → o ≤ 240 →
    let t := k.evidence c o
    let r := rollGet k.roll o
    t = { k with roll := t.roll, view := t.view } ∧
    rollGet t.roll o = { r with lastHeard := c.now, silent := false } ∧
    (∀ p, p ≠ o → rollGet t.roll p = rollGet k.roll p) ∧
    (r.silent = false → t.view = k.view) ∧
    (∀ a p, ¬ (a = o ∧ p = 255) → findEntry t.view a p = findEntry k.view a p) ∧
    (findEntry k.view o 255 = none → findEntry t.view o 255 = none) ∧
    ∀ e, r.silent = true → findEntry k.view o 255 = some e →
      (e.state ≠ .active → findEntry t.view o 255 = some e) ∧
      (e.state = .active → e.ack = none →
        findEntry t.view o 255 = some { e with state := .cleared, ageBase := 0, baseTime := c.now }) ∧
      (e.state = .active → e.ack ≠ none → findEntry t.view o 255 = some
        { e with state := .retired, ageBase := 0, baseTime := c.now,
                 retireTime := some (c.now + BitVec.ofNat 32 (60 * c.cfg.retireHold)) })) ∧
  (∀ (c : Ctx) (prior : Vector RollRecord 240) (i : Item) (k : County) (n : Half), i.origin ≠ c.number →
    (rollGet k.roll i.origin).newest = some n → i.start ≠ n → countTakenNewer i.start n = false →
    k.hearItem c prior i = k.count .staleHeard) ∧
  (∀ (c : Ctx) (prior : Vector RollRecord 240) (i : Item) (k₀ : County), i.origin ≠ c.number → 1 ≤ i.origin →
    i.origin ≤ 240 →
    (∀ n, (rollGet k₀.roll i.origin).newest = some n → i.start = n ∨ countTakenNewer i.start n = true) →
    let k := k₀.takeStart c i.origin i.start
    let relayed := fun (hop : Nat) (j : Item) (severity : Nat) (k : County) =>
      if hop = 0 then k else k.offer c ⟨j, severity, .relay, 1, 0⟩
    (∀ f, i = .fault f →
      let r := mergeFault c false f k.toViewSide
      let merged : County := { k with toViewSide := r.1 }
      let passed := fun k : County =>
        let held := match findEntry k.view f.origin f.point with
          | some e => if e.stamp = some f.stamp then e.ack else none
          | none => none
        relayed f.hop (.fault { f with hop := f.hop - 1, ack := if held = none then f.ack else held }) f.severity k
      k₀.hearItem c prior (.fault f) = match r.2 with
        | .created => passed (merged.evidence c f.origin)
        | .newer => passed (merged.evidence c f.origin)
        | .ackApplied => passed merged
        | .renewal => passed merged
        | .duplicate => merged.notice c f.origin f.point f.stamp []
        | .outdated => (merged.count .staleHeard).correct c f.origin f.point
        | .unplaced => merged.count .staleHeard) ∧
    (∀ a, i = .ack a →
      let r := mergeAckItem c a k.toViewSide
      let merged : County := { k with toViewSide := r.1 }
      (∀ e, r.2 = .ackApplied → findEntry merged.view a.origin a.point = some e →
        k₀.hearItem c prior i = relayed a.hop (.ack { a with hop := a.hop - 1 }) e.severity merged) ∧
      (r.2 = .duplicate → k₀.hearItem c prior i = merged.notice c a.origin a.point a.stamp []) ∧
      (r.2 = .outdated → k₀.hearItem c prior i = (merged.count .staleHeard).correct c a.origin a.point) ∧
      (r.2 = .unplaced → k₀.hearItem c prior i = merged.count .staleHeard)) ∧
    (∀ m, i = .compact m →
      let step := fun (acc : County × List CompactPoint × List (Nat × Stamp)) (y : CompactPoint) =>
        let st : Stamp := ⟨m.start, y.change⟩
        let r := mergeFault c true
          ⟨m.origin, y.point, st, m.kind, m.severity, m.state, 0, y.age, y.asOf, m.hop, none, none⟩ acc.1.toViewSide
        let merged : County := { acc.1 with toViewSide := r.1 }
        match r.2 with
        | .created => (merged.evidence c m.origin, acc.2.1 ++ [y], acc.2.2)
        | .newer => (merged.evidence c m.origin, acc.2.1 ++ [y], acc.2.2)
        | .ackApplied => (merged, acc.2.1 ++ [y], acc.2.2)
        | .renewal => (merged, acc.2.1 ++ [y], acc.2.2)
        | .duplicate => (merged.notice c m.origin y.point st acc.2.2, acc.2.1, acc.2.2 ++ [(y.point, st)])
        | .outdated => ((merged.count .staleHeard).correct c m.origin y.point, acc.2.1, acc.2.2)
        | .unplaced => (merged.count .staleHeard, acc.2.1, acc.2.2)
      let r := m.points.foldl step (k, [], [])
      (r.2.1 = [] → k₀.hearItem c prior i = r.1) ∧
      (∀ y, r.2.1 = [y] → k₀.hearItem c prior i = relayed m.hop (.fault ⟨m.origin, y.point, ⟨m.start, y.change⟩, m.kind,
        m.severity, m.state, match findEntry r.1.view m.origin y.point with
          | some e => e.occurrences
          | none => if m.state = .active then 1 else 0, y.age, y.asOf, m.hop - 1, none, none⟩) m.severity r.1) ∧
      (2 ≤ r.2.1.length → k₀.hearItem c prior i =
        relayed m.hop (.compact { m with hop := m.hop - 1, points := r.2.1 }) m.severity r.1)) ∧
    (∀ a, i = .alive a →
      let before := rollGet prior a.origin
      let isNew := (rollGet k₀.roll a.origin).newest ≠ some a.start ∨ before.newest = none
      (isNew ∨ 30 * c.cfg.presence ≤ since c.now before.lastHeard →
        k₀.hearItem c prior i = relayed a.hop (.alive { a with hop := a.hop - 1 }) 1 (k.evidence c a.origin)) ∧
      (¬ isNew → since c.now before.lastHeard < 30 * c.cfg.presence →
        k₀.hearItem c prior i = k.notice c a.origin 254 ⟨a.start, 0⟩ [])))

/-- A start count taken by the roll makes a station known, causes an epoch advance, or changes nothing; a header that is the
newest is evidence of life and counted as heard direct, and one gone back makes a correction check for each entry held at the
newest count (R112, R113, R116). A good bulletin is counted, its header and then its items are taken in order, and what made a
station known or advanced it is noted for its ALIVE (R118, R152); under this station's own number it is discarded whole and
latches DUPLICATE_STATION (R113). An item of own origin: an older start count is ignored; under the own start count a newer
change number of a FAULT, a COMPACT point or an ACK moves N past it and latches STAMP_CONFLICT, and an ACK goes on to the
entry; a newer start count begins the recovery under the count after it, which is newer than the own one was, and where the
count heard is 32767 ahead lies 32768 ahead; the stamp of a FAULT or ACK heard is then not newer than the newest own one (R88,
R120, R121). A start-count advance is made before a stamp where N − Bn exceeds 32767: the own start count rises by one, the
roll and the start record take it, N and Bn restart at 1 (R13, R14). That an own-origin start count at a difference of exactly
32768, neither newer nor older, changes nothing is the model's reading (log 17). -/
def Obligations.OwnStampsStayNewest : Prop :=
  (∀ (c : Ctx) (k : County) (o : Nat) (start : Half) (items : List Item), 1 ≤ o → o ≤ 240 →
     let r := rollGet k.roll o
     let known := { k with roll := rollSet k.roll o { r with newest := some start, lastHeard := c.now } }
     (r.newest = none → k.takeStart c o start = known) ∧
     (∀ n, r.newest = some n →
       (start = n → k.takeStart c o start = k) ∧
       (start ≠ n → countTakenNewer start n = true → k.takeStart c o start = k.advanceEpoch c o start) ∧
       (start ≠ n → countTakenNewer start n = false → k.takeStart c o start = k)) ∧
     (∀ p (prior : Vector RollRecord 240), rollGet (k.notePrior o start prior) p =
       if p = o ∧ (r.newest = none ∨ ∃ n, r.newest = some n ∧ start ≠ n ∧ countTakenNewer start n = true)
       then ⟨none, 0, 0, false⟩ else rollGet prior p) ∧
     (let t := k.takeStart c o start
      let lived := t.evidence c o
      ((rollGet t.roll o).newest = some start → k.takeHeader c o start = { lived with
        roll := rollSet lived.roll o { rollGet lived.roll o with heardDirect := (rollGet t.roll o).heardDirect + 1 } }) ∧
      (∀ n, r.newest = some n → start ≠ n → countTakenNewer start n = false →
        k.takeHeader c o start = (k.view.filter fun e =>
          e.origin == o && !e.localOnly && e.stamp.any (·.start == n)).foldl
            (fun k e => k.correct c e.origin e.point) k)) ∧
     (o ≠ c.number →
       let k' := k.count .heardGood
       k.hearBulletin c o start items = (items.foldl
         (fun (acc : County × Vector RollRecord 240) i =>
           (acc.1.hearItem c acc.2 i, acc.1.notePrior i.origin i.start acc.2))
         (k'.takeHeader c o start, k'.notePrior o start k'.roll)).1)) ∧
  (∀ (c : Ctx) (k : County) (prior : Vector RollRecord 240) (i : Item) (start : Half) (items : List Item),
     k.hearBulletin c c.number start items =
       { (k.count .heardGood).count .duplicateStation with duplicateStation := true } ∧
     (i.origin = c.number →
       let t := k.hearItem c prior i
       let bump := fun (k : County) (x : Half) => if countNewer x (k.nextChange - 1) = true then
           { k with nextChange := x + 1, stampConflict := true } else k
       (i.start = k.ownStart →
         (∀ f, i = .fault f → t = bump k f.stamp.change) ∧
         (∀ n, i = .compact n → t = n.points.foldl (fun k y => bump k y.change) k) ∧
         (∀ a, i = .ack a → t = (bump k a.stamp.change).hearAck c a) ∧
         (∀ a, i = .alive a → t = k)) ∧
       (∀ st, (∃ f, i = .fault f ∧ st = f.stamp) ∨ (∃ a, i = .ack a ∧ st = a.stamp) →
         Stamp.newer st ⟨t.ownStart, t.nextChange - 1⟩ = false) ∧
       (i.start ≠ k.ownStart → countNewer i.start k.ownStart = false → t = k) ∧
       (countNewer i.start k.ownStart = true → countTakenNewer t.ownStart k.ownStart = true ∧
         ((i.start - k.ownStart).toNat ≠ 32767 → countNewer t.ownStart k.ownStart = true)) ∧
       (countNewer i.start k.ownStart = true → 1 ≤ c.number → c.number ≤ 240 →
         t.ownStart = i.start + 1 ∧ t.stampConflict = true ∧ t.baseChange = 1 ∧
         (rollGet t.roll c.number).newest = some (i.start + 1) ∧
         t.nextChange = 1 + BitVec.ofNat 16 (k.view.filter (·.own)).length ∧
         (k.loader.op = none → t.loader = { k.loader with op := some (.startWrite (i.start + 1)) }) ∧
         (k.loader.op ≠ none → t.loader = { k.loader with pendingStart := some (i.start + 1) }) ∧
         ∀ x ∈ t.queue, x.item.origin = c.number → c.mode = .run → x.item.start = i.start + 1))) ∧
  (∀ (c : Ctx) (k : County),
     ((k.nextChange - k.baseChange).toNat ≤ 32767 →
       k.takeStamp c = ({ k with nextChange := k.nextChange + 1 }, ⟨k.ownStart, k.nextChange⟩)) ∧
     (32767 < (k.nextChange - k.baseChange).toNat → 1 ≤ c.number → c.number ≤ 240 →
       let n := 1 + BitVec.ofNat 16 (k.view.filter (·.own)).length
       (k.takeStamp c).2 = ⟨k.ownStart + 1, n⟩ ∧ (k.takeStamp c).1.ownStart = k.ownStart + 1 ∧
       (k.takeStamp c).1.nextChange = n + 1 ∧ (k.takeStamp c).1.baseChange = 1 ∧
       (rollGet (k.takeStamp c).1.roll c.number).newest = some (k.ownStart + 1) ∧
       (k.loader.op = none →
         (k.takeStamp c).1.loader = { k.loader with op := some (.startWrite (k.ownStart + 1)) })))

/-- PRESENCE_TIME in RUN offers the own ALIVE; REFRESH in RUN offers each own ACTIVE or INHIBITED entry's news as REFRESH in
ascending point order, and changes no entry; with the interval off it offers nothing (R117, R138). -/
def Obligations.PresenceAndRefreshOffer : Prop :=
  ∀ s : State, s.mode = .run →
    exec .presenceTime s = .next (State.settle { s with
      toCounty := s.toCounty.offer s.ctx ⟨.alive ⟨s.number, s.ownStart, s.cfg.hopBudget⟩, 1, .own, 0, 0⟩ }) ∧
    (s.cfg.refresh = 0 → exec .refresh s = .next s.settle) ∧
    (0 < s.cfg.refresh → exec .refresh s = .next (State.settle { s with
      toCounty := (s.view.filter fun e => e.own && (e.state == .active || e.state == .inhibited)).foldl
        (fun k e => k.offer s.ctx ⟨.fault ⟨e.origin, e.point, e.stamp.getD ⟨0, 0⟩, e.kind, e.severity,
          if e.state = .active then .active else .inhibited, e.occurrences, e.age s.now, s.now, s.cfg.hopBudget, e.ack,
          e.affected⟩, e.severity, .refresh, 0, 0⟩) s.toCounty })) ∧
    ∃ q, exec .refresh s = .next (State.settle { s with toQueueSide := q })

/-- Every step keeps this: no entry that is ACTIVE or INHIBITED and no queued item of another origin has a start count older
than the newest the roll holds for that origin (R115); a difference of exactly 32768 counts as older here, the model's
reading (log 17). -/
def Obligations.StartCountsStayCurrent : Prop :=
  ∀ s t : State, s.ownersOk = true → s.startsOk = true → step s = .next t → t.startsOk = true

/-! ## Attention (chapter 10) -/

/-- Every step keeps the saved levels at most four and strictly increasing up to the current level (R163), and keeps levels
in 0..7 and severities in 1..7 (R3, R162). -/
def Obligations.StackIncreasesLevelsInRange : Prop :=
  (∀ s t : State, s.stackOk = true → step s = .next t → t.stackOk = true) ∧
  (∀ s t : State, s.levelsOk = true → step s = .next t → t.levelsOk = true)

/-- ACKNOWLEDGE, in the order of R108: the ack part of this station is applied, a CLEARED entry retires, and the ACK item is
offered unless the entry is LOCAL_ONLY (R99, R108). -/
def Obligations.AcknowledgeAnswersInOrder : Prop :=
  ∀ (s : State) (o p : Byte) (start change : Half) (op : Byte), s.ready = true →
    let goes := fun t : State => exec (.acknowledge o p start change op) s = .next t
    (s.mode = .listen → goes (s.replied 0x05 .wrongState [])) ∧
    (s.mode = .run → findEntry s.view o.toNat p.toNat = none → goes (s.replied 0x05 .noEntry [])) ∧
    (∀ e, s.mode = .run → findEntry s.view o.toNat p.toNat = some e →
      (e.localOnly = false → e.stamp ≠ some ⟨start, change⟩ →
        goes (s.replied 0x05 .staleStamp (entryBytes s.now s.unsent e))) ∧
      (e.localOnly = true ∨ e.stamp = some ⟨start, change⟩ → e.ack ≠ none →
        goes (s.replied 0x05 .ok (entryBytes s.now s.unsent e))) ∧
      (e.localOnly = true ∨ e.stamp = some ⟨start, change⟩ → e.ack = none →
        let e' := if e.state = .cleared then
            { e with ack := some ⟨s.number, op⟩, state := .retired,
                     retireTime := some (s.now + BitVec.ofNat 32 (60 * s.cfg.retireHold)) }
          else { e with ack := some ⟨s.number, op⟩ }
        ∃ t : State, goes ((State.settle t).replied 0x05 .ok (entryBytes s.now t.unsent e')) ∧
          t = { s with toQueueSide := t.toQueueSide, view := t.view } ∧
          findEntry t.view e.origin e.point = some e' ∧
          (∀ a b, ¬ (a = e.origin ∧ b = e.point) → findEntry t.view a b = findEntry s.view a b) ∧
          (e.localOnly = true → t.toQueueSide = s.toQueueSide) ∧
          (e.localOnly = false → t.toQueueSide = offerItem s.ctx s.roll t.view
            ⟨.ack ⟨e.origin, e.point, ⟨start, change⟩, ⟨s.number, op⟩, s.cfg.hopBudget⟩, e.severity, .own, 0, 0⟩
            s.toQueueSide)))

/-- TAKE, in the order of R165: the candidate is the first entry of the dispatch order in group 1 or 2 above the level; it is
acknowledged, the level saved, and the candidate's severity becomes the level. FINISH and SET LEVEL move the level (R165 to
R167). -/
def Obligations.TakeFinishSetLevel : Prop :=
  ∀ (s : State) (op n : Byte), s.ready = true →
    let candidate := (dispatchOrder s.now s.view).find? fun e =>
      decide (s.level < e.severity ∧ (e.state = .active ∧ e.ack = none ∨ e.state = .cleared))
    let depth := fun k : List Nat => (BitVec.ofNat 8 k.length : Byte)
    let levels := [BitVec.ofNat 8 s.level, depth s.stack]
    (s.mode = .listen → exec (.take op) s = .next (s.replied 0x06 .wrongState [])) ∧
    (s.mode = .run → candidate = none → exec (.take op) s = .next (s.replied 0x06 .nonePending levels)) ∧
    (∀ e, s.mode = .run → candidate = some e → 4 ≤ s.stack.length →
      exec (.take op) s = .next (s.replied 0x06 .stackFull levels)) ∧
    (∀ e, s.mode = .run → candidate = some e → s.stack.length < 4 → viewOrdered s.view = true →
      let e' := { e with
        ack := some ⟨s.number, op⟩, state := if e.state = .cleared then .retired else e.state,
        retireTime := if e.state = .cleared then some (s.now + BitVec.ofNat 32 (60 * s.cfg.retireHold))
          else e.retireTime }
      ∃ t : State, exec (.take op) s = .next ((State.settle { t with stack := s.level :: s.stack, level := e.severity }).replied
          0x06 .ok ([BitVec.ofNat 8 e.severity, depth (s.level :: s.stack)] ++ entryBytes s.now t.unsent e')) ∧
        t = { s with toQueueSide := t.toQueueSide, view := t.view } ∧
        findEntry t.view e.origin e.point = some e' ∧
        (∀ a b, ¬ (a = e.origin ∧ b = e.point) → findEntry t.view a b = findEntry s.view a b) ∧
        (e.localOnly = true → t.toQueueSide = s.toQueueSide) ∧
        (∀ st, e.localOnly = false → e.stamp = some st → t.toQueueSide = offerItem s.ctx s.roll t.view
          ⟨.ack ⟨e.origin, e.point, st, ⟨s.number, op⟩, s.cfg.hopBudget⟩, e.severity, .own, 0, 0⟩ s.toQueueSide)) ∧
    (s.stack = [] → exec .finish s = .next (s.replied 0x07 .stackEmpty [])) ∧
    (∀ l rest, s.stack = l :: rest → exec .finish s = .next
      ((State.settle { s with stack := rest, level := l }).replied 0x07 .ok [BitVec.ofNat 8 l, depth rest])) ∧
    (s.stack ≠ [] → exec (.setLevel n) s = .next (s.replied 0x08 .busy levels)) ∧
    (s.stack = [] → exec (.setLevel n) s = .next ((State.settle { s with level := min 7 n.toNat }).replied 0x08 .ok
      [BitVec.ofNat 8 (min 7 n.toNat), 0]))

/-! ## Console Port (chapter 11) -/

/-- STATUS answers OK with Table 11.5, READ COUNTERS with the counters and rollover flags from before its clear; neither
changes anything else (R177, R179, R181). -/
def Obligations.StatusAndCountersReport : Prop :=
  ∀ (s : State) (clear : Byte), s.ready = true →
    let byte := fun n : Nat => (BitVec.ofNat 8 n : Byte)
    let low := fun n : Nat => [byte (n % 256), byte (n / 256 % 256)]
    let bit := fun (b : Bool) (n : Nat) => if b then n else 0
    exec .status s = .next (s.replied 0x01 .ok (
      [byte (if s.mode = .run then 1 else 2),
        byte (match s.listenReason with
          | none => 0
          | some .noMemory => 1
          | some .badSignature => 2
          | some .badImageCrc => 3
          | some .badStation => 4),
        byte s.number,
        byte (match s.trunk.enable with | .disabled => 0 | .enabled => 1 | .draining => 2),
        byte (match s.trunk.access with | .off => 0 | .idle => 1 | .defer => 2 | .keyup => 3 | .send => 4)] ++
      low s.view.length ++ [byte (s.view.filter (·.own)).length] ++ low (totalCharge s.queue) ++
      [byte (bit s.condensed 1), byte s.level, byte s.stack.length,
        byte (bit s.viewOverflow 1 + bit s.duplicateStation 2 + bit s.stampConflict 4 + bit s.startWriteFail 8)] ++
      low (s.now.toNat % 65536) ++ low (s.now.toNat / 65536) ++ low s.ownStart.toNat ++ low s.nextChange.toNat)) ∧
    (let flags := ((List.range 16).map fun i => bit (tget s.counters i ⟨0, false⟩).rolled (2 ^ i)).sum
    let data := ((List.range 16).flatMap fun i => low (tget s.counters i ⟨0, false⟩).value.toNat) ++ low flags
    (clear = 0 → exec (.readCounters clear) s = .next (s.replied 0x0D .ok data)) ∧
    (clear ≠ 0 → exec (.readCounters clear) s = .next (State.replied
      { s with counters := .replicate 16 ⟨0, false⟩, viewOverflow := false } 0x0D .ok data))) ∧
    (∀ (q : QueueSide) (i : CounterId), (q.count i).counter i =
      ⟨(q.counter i).value + 1, (q.counter i).rolled || (q.counter i).value == 0xFFFF⟩)

/-- The wire form of an entry is the 29 bytes of Table 11.4 (R176). READ TOP answers the first entries of the dispatch order,
READ NEXT the entry of the least key above, READ ENTRY the entry of the key, NO_ENTRY where there is none; READ POINT the
filter record and the family's live values, every byte of Table 11.6; READ ROLL a roll record; none changes anything. A READ
TOP count outside 1..4 and a station outside 1..240 are BAD_FORMAT, a point above 31 is NOT_LOCAL (R21, R37, R55, R73, R82,
R84, R85, R107, R111, R173, R176, R178). That the reference source of a LAMP channel shows configured until a reference has
been learned is the model's choice (log 20). -/
def Obligations.ReadsReport : Prop :=
  let byte := fun n : Nat => (BitVec.ofNat 8 n : Byte)
  let low := fun n : Nat => [byte (n % 256), byte (n / 256 % 256)]
  let time := fun t : Time => low (t.toNat % 65536) ++ low (t.toNat / 65536)
  let bit := fun (b : Bool) (n : Nat) => if b then n else 0
  ([Kind.lampOut, .lampPartial, .lampOvercurrent, .dayBurning, .loopOpen, .loopShort, .loopDrift, .loopStuck, .loopSilent,
      .signComm, .signPower, .signReported, .signPixelLoss, .signDoor, .mainsLost, .doorOpen, .inputActive,
      .stationSilent].map Kind.code = (List.range 18).map (· + 1)) ∧
  (∀ (now : Time) (unsent : Vector Bool 32) (e : Entry), entryBytes now unsent e =
     [byte e.origin, byte e.point] ++
     (match e.stamp with | some st => low st.start.toNat ++ low st.change.toNat | none => [0, 0, 0, 0]) ++
     [byte e.kind.code, byte e.severity,
       byte (match e.state with | .active => 1 | .cleared => 2 | .inhibited => 3 | .retired => 4),
       byte (bit e.own 1 + bit e.localOnly 2 + bit e.stale 4 + bit e.endedByRestart 8 +
         bit (e.own && tget unsent e.point false) 16),
       byte (bit e.stamp.isSome 1 + bit e.ack.isSome 2 + bit e.affected.isSome 4 + bit e.retireTime.isSome 8 +
         bit e.lastSent.isSome 16), byte e.occurrences] ++
     low (min 65535 (e.ageBase + (now - e.baseTime).toNat)) ++
     (match e.ack with | some a => [byte a.station, a.operator] | none => [0, 0]) ++ [byte (e.affected.getD 0)] ++
     time e.lastHeard ++ time (e.retireTime.getD 0) ++ time (e.lastSent.getD 0)) ∧
  (∀ (s : State) (n o p : Byte), s.ready = true →
     let wire := entryBytes s.now s.unsent
     let top := (dispatchOrder s.now s.view).take n.toNat
     let above := fun e : Entry => o.toNat < e.origin ∨ e.origin = o.toNat ∧ p.toNat < e.point
     (1 ≤ n.toNat → n.toNat ≤ 4 →
       exec (.readTop n) s = .next (s.replied 0x02 .ok (byte top.length :: top.flatMap wire))) ∧
     (n.toNat = 0 ∨ 4 < n.toNat → exec (.readTop n) s = .next (s.replied 0x02 .badFormat [])) ∧
     (∀ a e b, s.view = a ++ e :: b → (∀ x ∈ a, ¬ above x) → above e →
       exec (.readNext o p) s = .next (s.replied 0x03 .ok (wire e))) ∧
     ((∀ e ∈ s.view, ¬ above e) → exec (.readNext o p) s = .next (s.replied 0x03 .noEntry [])) ∧
     (∀ e, findEntry s.view o.toNat p.toNat = some e →
       exec (.readEntry o p) s = .next (s.replied 0x04 .ok (wire e))) ∧
     (findEntry s.view o.toNat p.toNat = none → exec (.readEntry o p) s = .next (s.replied 0x04 .noEntry []))) ∧
  (∀ (s : State) (p station : Byte), s.ready = true →
     let i := p.toNat
     let f := s.filter i
     let kind := fun k : Option Kind => (match k with | none => 0 | some k => byte k.code : Byte)
     let cls := fun x : Option SampleClass => (match x with
       | none => 0 | some .normal => 0 | some (.abnormal k) => byte k.code | some .neutral => 0xFE : Byte)
     let state := (match f.declared with | .unused => 0 | .normal => 1 | .fault _ => 2 | .inhibited => 3 : Byte)
     let declared := (match f.declared with | .fault k => some k | .unused => none | .normal => none | .inhibited => none)
     let record := fun family : Byte => [p, family, state, kind declared, byte f.p, kind f.l, byte f.r,
       byte f.occurrences, byte (bit (tget s.unsent i false) 1)]
     let answers := fun data : List Byte => exec (.readPoint p) s = .next (s.replied 0x09 .ok data)
     (31 < i → exec (.readPoint p) s = .next (s.replied 0x09 .notLocal [])) ∧
     (i ≤ 31 → f.declared = .unused → answers (record 0)) ∧
     (∀ x, i ≤ 31 → f.declared ≠ .unused → s.cfg.family i = some x →
       ∃ live, answers (record (match x with | .lamp => 1 | .loop => 2 | .sign => 3 | .input => 4) ++ live)) ∧
     (∀ cfg r, i < 16 → f.declared ≠ .unused → s.cfg.channel i = .lamp cfg → s.channel i = .lamp r →
       let lost := match cfg.supply with
         | some n => (match (s.filter (24 + n)).declared with | .fault _ => true | _ => false)
         | none => false
       let within := fun (start : Option Time) (n : Nat) => match start with
         | some t => decide ((s.now - t).toNat < n)
         | none => false
       let phase := if lost then 1 else if r.demand && within r.tw cfg.warmUp then 2
         else if r.demand then (if r.reference = 0 then (if r.learnFailed then 4 else 3) else 5)
         else if within r.tc 10 then 6 else 7
       answers (record 1 ++
         [byte (bit r.latestCurrent.isSome 1 + bit r.latestRatio.isSome 2 + bit r.latestClass.isSome 4)] ++
         low (r.latestCurrent.getD 0) ++ [byte (bit r.demand 1 + bit cfg.demand.isSome 2), byte phase] ++
         low r.reference ++ [byte (bit (decide (cfg.reference = 0 ∧ r.reference ≠ 0)) 1), byte r.learnCount] ++
         low r.learnSum ++ [byte (bit r.learnFailed 1)] ++ low (r.latestRatio.getD 0) ++
         [cls r.latestClass, match cfg.supply with | some n => byte (24 + n) | none => 0xFF])) ∧
     (∀ cfg r, i < 16 → f.declared ≠ .unused → s.cfg.channel i = .loop cfg → s.channel i = .loop r →
       answers (record 2 ++
         [byte (bit r.latestCount.isSome 1 + bit r.capture.isSome 2 + bit r.latestDeviation.isSome 4 +
             bit r.latestDrift.isSome 8 + bit r.occStart.isSome 16 + bit r.lastOccEnd.isSome 32 +
             bit r.latestClass.isSome 64),
           byte (if s.cfg.gateCode = 0 then 50 else if s.cfg.gateCode = 2 then 200 else 100)] ++
         low (r.latestCount.getD 0) ++
         (match r.capture with
           | some x => time x.time ++ low (x.baseline % 65536) ++ low (x.baseline / 65536) ++ low (x.baseline / 64)
           | none => List.replicate 10 0) ++
         low r.nominal ++ [byte (bit r.nominalCaptured 1)] ++ low (r.latestDeviation.getD 0 % 65536).toNat ++
         low (r.latestDrift.getD 0) ++ [byte (bit r.occStart.isSome 1)] ++ time (r.occStart.getD 0) ++
         time (r.lastOccEnd.getD 0) ++ [cls r.latestClass])) ∧
     (16 ≤ i → i ≤ 23 → f.declared ≠ .unused → s.cfg.family i = some .sign →
       let a := i - 15
       let r := s.signRecord a
       answers (record 3 ++
         [byte (bit r.lastOutcome.isSome 1 + bit r.latestClass.isSome 2 + bit r.lastGood.isSome 4), byte a,
           byte (match s.slc.state with
             | .stopped => 0 | .waiting => 1 | .sending => 2 | .awaiting => 3 | .guarding => 4),
           byte (bit (decide (s.slc.current = some a)) 1)] ++
         low (s.cfg.signAt a).pixelLimit ++
         (match r.lastOutcome with
           | none => [0, 0, 0, 0, 0, 0]
           | some (.good, t) => [1, 0] ++ time t
           | some (.noReply, t) => [2, 0] ++ time t
           | some (.garbled g, t) =>
             [3, byte (match g with | .short => 1 | .framing => 2 | .marker => 3 | .address => 4 | .check => 5)] ++ time t
           | some (.abandoned, t) => [4, 0] ++ time t) ++
         [cls r.latestClass] ++
         (match r.lastGood with
           | none => List.replicate 8 0
           | some g => [byte (bit g.powerFail 1 + bit g.selfTest 2 + bit g.doorOpen 4)] ++ low g.pixels ++ [g.message] ++
             time g.time))) ∧
     (24 ≤ i → i ≤ 31 → f.declared ≠ .unused → s.cfg.family i = some .input →
       let m := i - 24
       let cfg := s.cfg.inputAt m
       let r := s.input m
       let supplied := fun n : Nat => (match s.cfg.channel n, s.channel n with
         | .lamp l, .lamp x => if l.supply = some m then some x.demand else none
         | _, _ => none)
       answers (record 4 ++
         [0, byte m, byte (match cfg.role with | .unused => 0 | .demand => 1 | .mains => 2 | .door => 3 | .general => 4),
           byte (bit cfg.activeHigh 1), byte (bit cfg.filter 1), byte (bit r.latest 1), byte (bit r.previous 1),
           byte (bit r.filtered 1), byte (bit (r.filtered == cfg.activeHigh) 1)] ++
         low ((List.range 16).map fun n => bit (supplied n).isSome (2 ^ n)).sum ++
         [byte ((List.range 16).filter fun n => supplied n == some true).length])) ∧
     (1 ≤ station.toNat → station.toNat ≤ 240 →
       let r := rollGet s.roll station.toNat
       (r.newest = none → exec (.readRoll station) s = .next (s.replied 0x0C .ok [station, 0, 0, 0, 0, 0, 0, 0, 0, 0, 0])) ∧
       (∀ n, r.newest = some n → exec (.readRoll station) s = .next (s.replied 0x0C .ok
         ([station, 1] ++ low n.toNat ++ time r.lastHeard ++ low r.heardDirect.toNat ++ [byte (bit r.silent 1)])))) ∧
     (station.toNat = 0 ∨ 240 < station.toNat → exec (.readRoll station) s = .next (s.replied 0x0C .badFormat [])))

/-- WRITE CONFIG outside 0..503, across a page boundary, or of no bytes or 17 to 57 is BAD_FORMAT and touches nothing; otherwise
its write begins, or waits for the start-record write, and its reply waits for the end. RESTART is answered OK; the end of any
other reply sends the port hunting (R173, R174, R188). That the end of the reply to RESTART leaves the port REPLYING until
RESTART_TAKES_EFFECT is the model's reading (log 18); the command as the whole frame is log 10. -/
def Obligations.WriteConfigAndRestart : Prop :=
  ∀ (s : State) (offset : Half) (bytes : List Byte),
    let n := offset.toNat + bytes.length
    let waiting : State := { s with cp := ⟨.replying, [], none, none⟩ }
    (s.ready = true → bytes.length = 0 ∨ 16 < bytes.length ∧ bytes.length ≤ 57 →
      exec (.writeConfig offset bytes) s = .next (s.replied 0x13 .badFormat [])) ∧
    (s.ready = true → 1 ≤ bytes.length → bytes.length ≤ 16 → 504 < n ∨ offset.toNat / 16 ≠ (n - 1) / 16 →
      exec (.writeConfig offset bytes) s = .next (s.replied 0x13 .badFormat [])) ∧
    (s.ready = true → 1 ≤ bytes.length → bytes.length ≤ 16 → n ≤ 504 → offset.toNat / 16 = (n - 1) / 16 →
      (s.loader.op = none → exec (.writeConfig offset bytes) s = .next { waiting with
        loader := { s.loader with op := some (.configWrite ⟨offset.toNat, bytes⟩) } }) ∧
      (s.loader.op ≠ none → exec (.writeConfig offset bytes) s = .next { waiting with
        loader := { s.loader with waitingConfig := some ⟨offset.toNat, bytes⟩ } })) ∧
    (s.ready = true → exec .restart s = .next (State.replied { s with restart := .answered } 0x14 .ok [])) ∧
    (s.cp.port = .replying → s.cp.reply ≠ none → s.restart ≠ .answered →
      exec .replyEnd s = .next { s with cp := ⟨.hunting, [], none, none⟩ }) ∧
    (s.cp.port = .replying → s.cp.reply ≠ none → s.restart = .answered →
      exec .replyEnd s = .next { waiting with restart := .replyEnded }) ∧
    (s.cp.port ≠ .replying ∨ s.cp.reply = none → exec .replyEnd s = .next s)

/-- A byte on the console line by the port's state, and the gap time (R171 to R173): a request that completes with a bad check
is BAD_CHECK, one of an unknown code UNKNOWN_REQUEST, one of a known code with a length other than Table 11.3 gives it
BAD_FORMAT. That the code echo of a request with a bad check is the code received is the model's choice (log 11). -/
def Obligations.ConsoleByteTaken : Prop :=
  ∀ (s : State) (v : Byte) (framing : Bool),
    let byte := Instr.consoleByteReceived v framing
    let assembling := fun b : List Byte => ({ s with cp := ⟨.assembling, b, some s.clock, none⟩ } : State)
    let hunting : State := { s with cp := ⟨.hunting, [], none, none⟩ }
    (s.live = false → exec byte s = .next s) ∧
    (s.live = true → s.cp.port = .hunting → v = 0xA5 ∧ framing = false → exec byte s = .next (assembling [])) ∧
    (s.live = true → s.cp.port = .hunting → ¬ (v = 0xA5 ∧ framing = false) → exec byte s = .next s) ∧
    (s.live = true → s.cp.port = .replying → exec byte s = .next (s.count .consoleDiscards)) ∧
    (s.live = true → s.cp.port = .assembling → framing = true → exec byte s = .next hunting) ∧
    (s.live = true → s.cp.port = .assembling → framing = false → s.cp.buffer = [] →
      (1 ≤ v.toNat ∧ v.toNat ≤ 60 → exec byte s = .next (assembling [v])) ∧
      (v.toNat = 0 ∨ 60 < v.toNat → exec byte s = .next (s.replied 0x00 .badFormat []))) ∧
    (∀ n b, s.live = true → s.cp.port = .assembling → framing = false → s.cp.buffer = n :: b →
      (b.length ≠ n.toNat → exec byte s = .next (assembling (n :: b ++ [v]))) ∧
      (∀ code ps, b = code :: ps → b.length = n.toNat →
        (byteSum (n :: b ++ [v]) ≠ 0 → exec byte s = .next (s.replied code .badCheck [])) ∧
        (byteSum (n :: b ++ [v]) = 0 → 0x14 < code.toNat ∨ code = 0 →
          exec byte s = .next (s.replied code .unknownRequest [])) ∧
        (byteSum (n :: b ++ [v]) = 0 →
          (∀ size, (code.toNat, size) ∈ [(0x01, 0), (0x02, 1), (0x03, 2), (0x04, 2), (0x05, 7), (0x06, 1), (0x07, 0), (0x08, 1),
              (0x09, 1), (0x0A, 1), (0x0B, 1), (0x0C, 1), (0x0D, 1), (0x0E, 0), (0x0F, 0), (0x10, 0), (0x11, 0), (0x12, 0),
              (0x14, 0)] → ps.length ≠ size → exec byte s = .next (s.replied code .badFormat [])) ∧
          (code = 0x13 → ps.length < 3 ∨ 18 < ps.length → exec byte s = .next (s.replied code .badFormat []))))) ∧
    (s.cp.port = .assembling → exec .gapTimeExpiry s = .next hunting) ∧
    (s.cp.port ≠ .assembling → exec .gapTimeExpiry s = .next s)

/-- The bytes of a request's frame, taken one by one by a port that hunts, do what the request's command does; a port that is
REPLYING counts each byte as discarded, and outside RUN and LISTEN nothing is taken (R171 to R175, Table 11.1; the command
as the whole frame is log 10). -/
def Obligations.RequestFrameIsItsCommand : Prop :=
  ∀ (s : State) (rest : List Instr) (r : Request), r.inRange = true →
    (s.ready = true →
      Host.Core.run core r.frame.length
        { s with pending := r.frame.map (fun b => .consoleByteReceived b false) ++ rest } =
      exec r.command { s with pending := rest }) ∧
    (s.live = true → s.cp.port = .replying →
      exec r.command s = .next (s.count .consoleDiscards (r.params.length + 4))) ∧
    (s.live = false → exec r.command s = .next s)

end
end

