-- ==== Sys2Proof/Laws/Ops.lean ====
section
/-! SUPPORT. What the operations of Machine/Ops.lean do: tables by number, the configuration memory and its canonical form,
station time. -/

namespace Sys2Proof.Machine

/-! ## Tables by number -/

theorem tget_tset_self {α : Type} {n i : Nat} (t : Vector α n) (x d : α) (h : i < n) : tget (tset t i x) i d = x := by
  simp [tget, tset, h]

theorem tget_tset_ne {α : Type} {n i j : Nat} (t : Vector α n) (x d : α) (h : i ≠ j) :
    tget (tset t i x) j d = tget t j d := by
  simp [tget, tset, Vector.getElem?_setIfInBounds_ne h]

theorem tget_outside {α : Type} {n i : Nat} (t : Vector α n) (d : α) (h : n ≤ i) : tget t i d = d := by
  simp [tget, Vector.getElem?_eq_none h]

theorem tset_outside {α : Type} {n i : Nat} (t : Vector α n) (x : α) (h : n ≤ i) : tset t i x = t := by
  ext j hj
  simp [tset, show i ≠ j by omega]

/-! ## The roll -/

theorem rollGet_rollSet_self (roll : Vector RollRecord 240) {o : Nat} (r : RollRecord) (h : 1 ≤ o ∧ o ≤ 240) :
    rollGet (rollSet roll o r) o = r := by
  simp [rollGet, rollSet, h.1, tget_tset_self roll r _ (show o - 1 < 240 by omega)]

theorem rollGet_rollSet_ne (roll : Vector RollRecord 240) {o p : Nat} (r : RollRecord) (h : o ≠ p) :
    rollGet (rollSet roll o r) p = rollGet roll p := by
  by_cases hp : 1 ≤ p
  · by_cases ho : 1 ≤ o
    · simp [rollGet, rollSet, hp, ho, tget_tset_ne roll r _ (show o - 1 ≠ p - 1 by omega)]
    · simp [rollSet, ho]
  · simp [rollGet, hp]

/-! ## The configuration memory -/

@[simp] theorem Memory.read_nil (x : Nat) : Memory.read [] x = memoryBlank := rfl

theorem Memory.wfFrom_mono {lo lo' : Nat} (h : lo' ≤ lo) : ∀ {m : Memory}, Memory.wfFrom lo m = true →
    Memory.wfFrom lo' m = true
  | [], _ => rfl
  | (a, b) :: m, hw => by
    simp only [Memory.wfFrom, Bool.and_eq_true, decide_eq_true_eq] at hw ⊢
    exact ⟨⟨by omega, hw.1.2⟩, hw.2⟩

/-- Below its first address a canonical memory reads as blank. -/
theorem Memory.read_below : ∀ {m : Memory} {lo x : Nat}, Memory.wfFrom lo m = true → x < lo →
    Memory.read m x = memoryBlank
  | [], _, _, _, _ => rfl
  | (a, b) :: m, lo, x, hw, hx => by
    simp only [Memory.wfFrom, Bool.and_eq_true, decide_eq_true_eq] at hw
    have hne : x ≠ a := by omega
    simp only [Memory.read, hne, if_false]
    exact Memory.read_below hw.2 (by omega)

/-- A put keeps the canonical form. -/
theorem Memory.wfFrom_put : ∀ {m : Memory} {lo x : Nat} (b : Byte), Memory.wfFrom lo m = true → lo ≤ x → x < memorySize →
    Memory.wfFrom lo (Memory.put m x b) = true
  | [], lo, x, b, _, hlo, hx => by
    unfold Memory.put
    split
    · rfl
    · rename_i hb
      simp [Memory.wfFrom, hlo, hx, hb]
  | (a, c) :: m, lo, x, b, hw, hlo, hx => by
    simp only [Memory.wfFrom, Bool.and_eq_true, decide_eq_true_eq] at hw
    unfold Memory.put
    split
    · rename_i hlt
      split
      · simp [Memory.wfFrom, hw.2, hw.1]
      · rename_i hb
        have : Memory.wfFrom (x + 1) ((a, c) :: m) = true := by
          simp only [Memory.wfFrom, Bool.and_eq_true, decide_eq_true_eq]
          exact ⟨⟨by omega, hw.1.2⟩, hw.2⟩
        simp [Memory.wfFrom, hlo, hx, hb] at this ⊢
        exact this
    · split
      · rename_i heq
        subst heq
        split
        · exact Memory.wfFrom_mono (by omega) hw.2
        · rename_i hb
          simp [Memory.wfFrom, hlo, hx, hb, hw.2]
      · simp only [Memory.wfFrom, Bool.and_eq_true, decide_eq_true_eq]
        exact ⟨hw.1, Memory.wfFrom_put b hw.2 (by omega) hx⟩

/-- The byte put is read back; every other address reads as before. -/
theorem Memory.read_put : ∀ {m : Memory} {lo : Nat} (x : Nat) (b : Byte) (y : Nat), Memory.wfFrom lo m = true →
    Memory.read (Memory.put m x b) y = if y = x then b else Memory.read m y
  | [], _, x, b, y, _ => by
    unfold Memory.put
    by_cases hb : b = memoryBlank <;> by_cases hy : y = x <;> simp [hb, hy, Memory.read]
  | (a, c) :: m, lo, x, b, y, hw => by
    simp only [Memory.wfFrom, Bool.and_eq_true, decide_eq_true_eq] at hw
    unfold Memory.put
    by_cases hlt : x < a
    · have hblank : Memory.read ((a, c) :: m) x = memoryBlank := by
        have hne : x ≠ a := by omega
        simp only [Memory.read, hne, if_false]
        exact Memory.read_below hw.2 (by omega)
      by_cases hb : b = memoryBlank
      · by_cases hy : y = x
        · simp [hlt, hb, hy, hblank]
        · simp [hlt, hb, hy]
      · by_cases hy : y = x <;> simp [hlt, hb, hy, Memory.read]
    · by_cases heq : x = a
      · subst heq
        by_cases hb : b = memoryBlank
        · by_cases hy : y = x
          · simp [hb, hy, Memory.read_below hw.2 (Nat.lt_succ_self x)]
          · simp [hb, hy, Memory.read]
        · by_cases hy : y = x <;> simp [hb, hy, Memory.read]
      · by_cases hya : y = a
        · have : y ≠ x := by omega
          simp [hlt, heq, Memory.read, hya, Ne.symm heq]
        · simp [hlt, heq, Memory.read, hya, Memory.read_put x b y hw.2]

/-- A write keeps the canonical form. -/
theorem Memory.wf_write {m : Memory} (x : Nat) (b : Byte) (h : Memory.wf m = true) :
    Memory.wf (Memory.write m x b) = true := by
  unfold Memory.write
  split
  · rename_i hx
    exact Memory.wfFrom_put b h (Nat.zero_le x) hx
  · exact h

theorem Memory.read_write {m : Memory} (x : Nat) (b : Byte) (y : Nat) (h : Memory.wf m = true) (hx : x < memorySize) :
    Memory.read (Memory.write m x b) y = if y = x then b else Memory.read m y := by
  simp only [Memory.write, hx, if_true]
  exact Memory.read_put x b y h

theorem Memory.wf_writeBytes : ∀ {m : Memory} (bs : List Byte) (x : Nat), Memory.wf m = true →
    Memory.wf (Memory.writeBytes m x bs) = true
  | _, [], _, h => h
  | _, b :: bs, x, h => Memory.wf_writeBytes bs (x + 1) (Memory.wf_write x b h)

/-- Bytes written in a row are read back; every other address reads as before. -/
theorem Memory.read_writeBytes : ∀ {m : Memory} (bs : List Byte) (x y : Nat), Memory.wf m = true →
    x + bs.length ≤ memorySize →
    Memory.read (Memory.writeBytes m x bs) y =
      if x ≤ y ∧ y < x + bs.length then (bs[y - x]?).getD 0 else Memory.read m y
  | m, [], x, y, _, _ => by simp [Memory.writeBytes]
  | m, b :: bs, x, y, h, hx => by
    simp only [List.length_cons] at hx
    rw [Memory.writeBytes, Memory.read_writeBytes bs (x + 1) y (Memory.wf_write x b h) (by omega),
      Memory.read_write x b y h (by omega)]
    by_cases hy : y = x
    · subst hy
      simp
    · by_cases h1 : x + 1 ≤ y ∧ y < x + 1 + bs.length
      · have h2 : x ≤ y ∧ y < x + (b :: bs).length := by simp; omega
        have h3 : y - x = (y - (x + 1)) + 1 := by omega
        simp only [h1, h2, and_self, if_true, h3, List.getElem?_cons_succ]
      · have h2 : ¬ (x ≤ y ∧ y < x + (b :: bs).length) := by simp; omega
        rw [if_neg h1, if_neg h2, if_neg hy]

theorem Memory.wf_maybeWritten : ∀ {m : Memory} (bs : List Byte) (x k : Nat), Memory.wf m = true →
    Memory.wf (maybeWritten m x k bs) = true
  | _, [], _, _, h => h
  | m, b :: bs, x, k, h => by
    unfold maybeWritten
    split
    · exact Memory.wf_maybeWritten bs (x + 1) (k + 1) (Memory.wf_write x b h)
    · exact Memory.wf_maybeWritten bs (x + 1) (k + 1) h

theorem Memory.wf_forceDisagreement {m : Memory} (h : Memory.wf m = true) : Memory.wf (forceDisagreement m) = true := by
  unfold forceDisagreement
  split
  · exact Memory.wf_write _ _ h
  · exact h

theorem Memory.wf_reset : Memory.wf State.reset.mem = true := rfl

theorem State.wf_memoryAfter {s : State} (acked : Bool) (x : Nat) (bs : List Byte) (h : Memory.wf s.mem = true) :
    Memory.wf (s.memoryAfter acked x bs).mem = true := by
  unfold State.memoryAfter
  split
  · exact Memory.wf_writeBytes bs x h
  · exact Memory.wf_maybeWritten bs x s.free h

theorem State.wf_cutWrite {s : State} (h : Memory.wf s.mem = true) : Memory.wf s.cutWrite.mem = true := by
  unfold State.cutWrite
  split
  · exact Memory.wf_forceDisagreement (Memory.wf_writeBytes _ _ h)
  · exact Memory.wf_writeBytes _ _ h
  · exact h
  · exact h

/-! ## Station time -/

@[simp] theorem since_self (t : Time) : since t t = 0 := by simp [since]

theorem since_lt (a b : Time) : since a b < 2 ^ 32 := (a - b).isLt

@[simp] theorem reached_self (t : Time) : reached t t = true := by simp [reached, offsetFrom]

/-! ## Bytes -/

@[simp] theorem halfBytes_length (h : Half) : (halfBytes h).length = 2 := rfl

@[simp] theorem natHalfBytes_length (n : Nat) : (natHalfBytes n).length = 2 := rfl

@[simp] theorem timeBytes_length (t : Time) : (timeBytes t).length = 4 := rfl

/-- The two bytes of a 16-bit quantity, read back. -/
theorem halfOf_halfBytes (h : Half) : halfOf (h.setWidth 8) ((h >>> 8).setWidth 8) = h := by
  ext i hi
  simp [halfOf]
  by_cases h8 : i < 8
  · simpa [h8] using BitVec.getLsbD_eq_getElem hi
  · have h9 : 8 + (i - 8) = i := by omega
    simpa [h8, h9, show i - 8 < 8 by omega] using BitVec.getLsbD_eq_getElem hi

theorem byteOf_toNat {n : Nat} (h : n < 256) : (byteOf n).toNat = n := by
  simp [byteOf, Nat.mod_eq_of_lt h]

theorem byteOf_toNat_self (b : Byte) : byteOf b.toNat = b := by simp [byteOf]

end Sys2Proof.Machine
end

