-- ==== Sys2Proof/Laws/State.lean ====
section
/-! SUPPORT. One lemma for each field of State under each named update, true by rfl, so that no later proof unfolds a
record update. -/

namespace Sys2Proof.Machine

variable (s : State)

/-! ## Another county side -/

@[simp] theorem State.setCounty_toCounty (k : County) : (s.setCounty k).toCounty = k := rfl
@[simp] theorem State.setCounty_mode (k : County) : (s.setCounty k).mode = s.mode := rfl
@[simp] theorem State.setCounty_listenReason (k : County) : (s.setCounty k).listenReason = s.listenReason := rfl
@[simp] theorem State.setCounty_number (k : County) : (s.setCounty k).number = s.number := rfl
@[simp] theorem State.setCounty_cfg (k : County) : (s.setCounty k).cfg = s.cfg := rfl
@[simp] theorem State.setCounty_clock (k : County) : (s.setCounty k).clock = s.clock := rfl
@[simp] theorem State.setCounty_mem (k : County) : (s.setCounty k).mem = s.mem := rfl
@[simp] theorem State.setCounty_startWriteFail (k : County) : (s.setCounty k).startWriteFail = s.startWriteFail := rfl
@[simp] theorem State.setCounty_restart (k : County) : (s.setCounty k).restart = s.restart := rfl
@[simp] theorem State.setCounty_filters (k : County) : (s.setCounty k).filters = s.filters := rfl
@[simp] theorem State.setCounty_channels (k : County) : (s.setCounty k).channels = s.channels := rfl
@[simp] theorem State.setCounty_inputs (k : County) : (s.setCounty k).inputs = s.inputs := rfl
@[simp] theorem State.setCounty_slc (k : County) : (s.setCounty k).slc = s.slc := rfl
@[simp] theorem State.setCounty_signs (k : County) : (s.setCounty k).signs = s.signs := rfl
@[simp] theorem State.setCounty_trunk (k : County) : (s.setCounty k).trunk = s.trunk := rfl
@[simp] theorem State.setCounty_level (k : County) : (s.setCounty k).level = s.level := rfl
@[simp] theorem State.setCounty_stack (k : County) : (s.setCounty k).stack = s.stack := rfl
@[simp] theorem State.setCounty_attention (k : County) : (s.setCounty k).attention = s.attention := rfl
@[simp] theorem State.setCounty_cp (k : County) : (s.setCounty k).cp = s.cp := rfl
@[simp] theorem State.setCounty_free (k : County) : (s.setCounty k).free = s.free := rfl
@[simp] theorem State.setCounty_pending (k : County) : (s.setCounty k).pending = s.pending := rfl

/-! ## A filter record -/

@[simp] theorem State.setFilter_filters (p : Nat) (f : FilterRecord) : (s.setFilter p f).filters = tset s.filters p f := rfl
@[simp] theorem State.setFilter_mode (p : Nat) (f : FilterRecord) : (s.setFilter p f).mode = s.mode := rfl
@[simp] theorem State.setFilter_listenReason (p : Nat) (f : FilterRecord) : (s.setFilter p f).listenReason = s.listenReason := rfl
@[simp] theorem State.setFilter_number (p : Nat) (f : FilterRecord) : (s.setFilter p f).number = s.number := rfl
@[simp] theorem State.setFilter_cfg (p : Nat) (f : FilterRecord) : (s.setFilter p f).cfg = s.cfg := rfl
@[simp] theorem State.setFilter_clock (p : Nat) (f : FilterRecord) : (s.setFilter p f).clock = s.clock := rfl
@[simp] theorem State.setFilter_mem (p : Nat) (f : FilterRecord) : (s.setFilter p f).mem = s.mem := rfl
@[simp] theorem State.setFilter_startWriteFail (p : Nat) (f : FilterRecord) : (s.setFilter p f).startWriteFail = s.startWriteFail := rfl
@[simp] theorem State.setFilter_restart (p : Nat) (f : FilterRecord) : (s.setFilter p f).restart = s.restart := rfl
@[simp] theorem State.setFilter_channels (p : Nat) (f : FilterRecord) : (s.setFilter p f).channels = s.channels := rfl
@[simp] theorem State.setFilter_inputs (p : Nat) (f : FilterRecord) : (s.setFilter p f).inputs = s.inputs := rfl
@[simp] theorem State.setFilter_slc (p : Nat) (f : FilterRecord) : (s.setFilter p f).slc = s.slc := rfl
@[simp] theorem State.setFilter_signs (p : Nat) (f : FilterRecord) : (s.setFilter p f).signs = s.signs := rfl
@[simp] theorem State.setFilter_trunk (p : Nat) (f : FilterRecord) : (s.setFilter p f).trunk = s.trunk := rfl
@[simp] theorem State.setFilter_level (p : Nat) (f : FilterRecord) : (s.setFilter p f).level = s.level := rfl
@[simp] theorem State.setFilter_stack (p : Nat) (f : FilterRecord) : (s.setFilter p f).stack = s.stack := rfl
@[simp] theorem State.setFilter_attention (p : Nat) (f : FilterRecord) : (s.setFilter p f).attention = s.attention := rfl
@[simp] theorem State.setFilter_cp (p : Nat) (f : FilterRecord) : (s.setFilter p f).cp = s.cp := rfl
@[simp] theorem State.setFilter_free (p : Nat) (f : FilterRecord) : (s.setFilter p f).free = s.free := rfl
@[simp] theorem State.setFilter_pending (p : Nat) (f : FilterRecord) : (s.setFilter p f).pending = s.pending := rfl
@[simp] theorem State.setFilter_toCounty (p : Nat) (f : FilterRecord) : (s.setFilter p f).toCounty = s.toCounty := rfl

/-! ## A channel record -/

@[simp] theorem State.setChannel_channels (c : Nat) (r : Channel) : (s.setChannel c r).channels = tset s.channels c r := rfl
@[simp] theorem State.setChannel_mode (c : Nat) (r : Channel) : (s.setChannel c r).mode = s.mode := rfl
@[simp] theorem State.setChannel_listenReason (c : Nat) (r : Channel) : (s.setChannel c r).listenReason = s.listenReason := rfl
@[simp] theorem State.setChannel_number (c : Nat) (r : Channel) : (s.setChannel c r).number = s.number := rfl
@[simp] theorem State.setChannel_cfg (c : Nat) (r : Channel) : (s.setChannel c r).cfg = s.cfg := rfl
@[simp] theorem State.setChannel_clock (c : Nat) (r : Channel) : (s.setChannel c r).clock = s.clock := rfl
@[simp] theorem State.setChannel_mem (c : Nat) (r : Channel) : (s.setChannel c r).mem = s.mem := rfl
@[simp] theorem State.setChannel_startWriteFail (c : Nat) (r : Channel) : (s.setChannel c r).startWriteFail = s.startWriteFail := rfl
@[simp] theorem State.setChannel_restart (c : Nat) (r : Channel) : (s.setChannel c r).restart = s.restart := rfl
@[simp] theorem State.setChannel_filters (c : Nat) (r : Channel) : (s.setChannel c r).filters = s.filters := rfl
@[simp] theorem State.setChannel_inputs (c : Nat) (r : Channel) : (s.setChannel c r).inputs = s.inputs := rfl
@[simp] theorem State.setChannel_slc (c : Nat) (r : Channel) : (s.setChannel c r).slc = s.slc := rfl
@[simp] theorem State.setChannel_signs (c : Nat) (r : Channel) : (s.setChannel c r).signs = s.signs := rfl
@[simp] theorem State.setChannel_trunk (c : Nat) (r : Channel) : (s.setChannel c r).trunk = s.trunk := rfl
@[simp] theorem State.setChannel_level (c : Nat) (r : Channel) : (s.setChannel c r).level = s.level := rfl
@[simp] theorem State.setChannel_stack (c : Nat) (r : Channel) : (s.setChannel c r).stack = s.stack := rfl
@[simp] theorem State.setChannel_attention (c : Nat) (r : Channel) : (s.setChannel c r).attention = s.attention := rfl
@[simp] theorem State.setChannel_cp (c : Nat) (r : Channel) : (s.setChannel c r).cp = s.cp := rfl
@[simp] theorem State.setChannel_free (c : Nat) (r : Channel) : (s.setChannel c r).free = s.free := rfl
@[simp] theorem State.setChannel_pending (c : Nat) (r : Channel) : (s.setChannel c r).pending = s.pending := rfl
@[simp] theorem State.setChannel_toCounty (c : Nat) (r : Channel) : (s.setChannel c r).toCounty = s.toCounty := rfl

/-! ## An input record -/

@[simp] theorem State.setInput_inputs (i : Nat) (r : InputRecord) : (s.setInput i r).inputs = tset s.inputs i r := rfl
@[simp] theorem State.setInput_mode (i : Nat) (r : InputRecord) : (s.setInput i r).mode = s.mode := rfl
@[simp] theorem State.setInput_listenReason (i : Nat) (r : InputRecord) : (s.setInput i r).listenReason = s.listenReason := rfl
@[simp] theorem State.setInput_number (i : Nat) (r : InputRecord) : (s.setInput i r).number = s.number := rfl
@[simp] theorem State.setInput_cfg (i : Nat) (r : InputRecord) : (s.setInput i r).cfg = s.cfg := rfl
@[simp] theorem State.setInput_clock (i : Nat) (r : InputRecord) : (s.setInput i r).clock = s.clock := rfl
@[simp] theorem State.setInput_mem (i : Nat) (r : InputRecord) : (s.setInput i r).mem = s.mem := rfl
@[simp] theorem State.setInput_startWriteFail (i : Nat) (r : InputRecord) : (s.setInput i r).startWriteFail = s.startWriteFail := rfl
@[simp] theorem State.setInput_restart (i : Nat) (r : InputRecord) : (s.setInput i r).restart = s.restart := rfl
@[simp] theorem State.setInput_filters (i : Nat) (r : InputRecord) : (s.setInput i r).filters = s.filters := rfl
@[simp] theorem State.setInput_channels (i : Nat) (r : InputRecord) : (s.setInput i r).channels = s.channels := rfl
@[simp] theorem State.setInput_slc (i : Nat) (r : InputRecord) : (s.setInput i r).slc = s.slc := rfl
@[simp] theorem State.setInput_signs (i : Nat) (r : InputRecord) : (s.setInput i r).signs = s.signs := rfl
@[simp] theorem State.setInput_trunk (i : Nat) (r : InputRecord) : (s.setInput i r).trunk = s.trunk := rfl
@[simp] theorem State.setInput_level (i : Nat) (r : InputRecord) : (s.setInput i r).level = s.level := rfl
@[simp] theorem State.setInput_stack (i : Nat) (r : InputRecord) : (s.setInput i r).stack = s.stack := rfl
@[simp] theorem State.setInput_attention (i : Nat) (r : InputRecord) : (s.setInput i r).attention = s.attention := rfl
@[simp] theorem State.setInput_cp (i : Nat) (r : InputRecord) : (s.setInput i r).cp = s.cp := rfl
@[simp] theorem State.setInput_free (i : Nat) (r : InputRecord) : (s.setInput i r).free = s.free := rfl
@[simp] theorem State.setInput_pending (i : Nat) (r : InputRecord) : (s.setInput i r).pending = s.pending := rfl
@[simp] theorem State.setInput_toCounty (i : Nat) (r : InputRecord) : (s.setInput i r).toCounty = s.toCounty := rfl

/-! ## Counting -/

@[simp] theorem State.count_toCounty (i : CounterId) (n : Nat) : (s.count i n).toCounty = s.toCounty.count i n := rfl
@[simp] theorem State.count_mode (i : CounterId) (n : Nat) : (s.count i n).mode = s.mode := rfl
@[simp] theorem State.count_listenReason (i : CounterId) (n : Nat) : (s.count i n).listenReason = s.listenReason := rfl
@[simp] theorem State.count_number (i : CounterId) (n : Nat) : (s.count i n).number = s.number := rfl
@[simp] theorem State.count_cfg (i : CounterId) (n : Nat) : (s.count i n).cfg = s.cfg := rfl
@[simp] theorem State.count_clock (i : CounterId) (n : Nat) : (s.count i n).clock = s.clock := rfl
@[simp] theorem State.count_mem (i : CounterId) (n : Nat) : (s.count i n).mem = s.mem := rfl
@[simp] theorem State.count_startWriteFail (i : CounterId) (n : Nat) : (s.count i n).startWriteFail = s.startWriteFail := rfl
@[simp] theorem State.count_restart (i : CounterId) (n : Nat) : (s.count i n).restart = s.restart := rfl
@[simp] theorem State.count_filters (i : CounterId) (n : Nat) : (s.count i n).filters = s.filters := rfl
@[simp] theorem State.count_channels (i : CounterId) (n : Nat) : (s.count i n).channels = s.channels := rfl
@[simp] theorem State.count_inputs (i : CounterId) (n : Nat) : (s.count i n).inputs = s.inputs := rfl
@[simp] theorem State.count_slc (i : CounterId) (n : Nat) : (s.count i n).slc = s.slc := rfl
@[simp] theorem State.count_signs (i : CounterId) (n : Nat) : (s.count i n).signs = s.signs := rfl
@[simp] theorem State.count_trunk (i : CounterId) (n : Nat) : (s.count i n).trunk = s.trunk := rfl
@[simp] theorem State.count_level (i : CounterId) (n : Nat) : (s.count i n).level = s.level := rfl
@[simp] theorem State.count_stack (i : CounterId) (n : Nat) : (s.count i n).stack = s.stack := rfl
@[simp] theorem State.count_attention (i : CounterId) (n : Nat) : (s.count i n).attention = s.attention := rfl
@[simp] theorem State.count_cp (i : CounterId) (n : Nat) : (s.count i n).cp = s.cp := rfl
@[simp] theorem State.count_free (i : CounterId) (n : Nat) : (s.count i n).free = s.free := rfl
@[simp] theorem State.count_pending (i : CounterId) (n : Nat) : (s.count i n).pending = s.pending := rfl

/-! ## The end of an event -/

@[simp] theorem State.settle_attention : (s.settle).attention = attentionCondition s.view s.level := rfl
@[simp] theorem State.settle_trunk : (s.settle).trunk = s.trunk.settled s.queue s.clock := rfl
@[simp] theorem State.settle_mode : (s.settle).mode = s.mode := rfl
@[simp] theorem State.settle_listenReason : (s.settle).listenReason = s.listenReason := rfl
@[simp] theorem State.settle_number : (s.settle).number = s.number := rfl
@[simp] theorem State.settle_cfg : (s.settle).cfg = s.cfg := rfl
@[simp] theorem State.settle_clock : (s.settle).clock = s.clock := rfl
@[simp] theorem State.settle_mem : (s.settle).mem = s.mem := rfl
@[simp] theorem State.settle_startWriteFail : (s.settle).startWriteFail = s.startWriteFail := rfl
@[simp] theorem State.settle_restart : (s.settle).restart = s.restart := rfl
@[simp] theorem State.settle_filters : (s.settle).filters = s.filters := rfl
@[simp] theorem State.settle_channels : (s.settle).channels = s.channels := rfl
@[simp] theorem State.settle_inputs : (s.settle).inputs = s.inputs := rfl
@[simp] theorem State.settle_slc : (s.settle).slc = s.slc := rfl
@[simp] theorem State.settle_signs : (s.settle).signs = s.signs := rfl
@[simp] theorem State.settle_level : (s.settle).level = s.level := rfl
@[simp] theorem State.settle_stack : (s.settle).stack = s.stack := rfl
@[simp] theorem State.settle_cp : (s.settle).cp = s.cp := rfl
@[simp] theorem State.settle_free : (s.settle).free = s.free := rfl
@[simp] theorem State.settle_pending : (s.settle).pending = s.pending := rfl
@[simp] theorem State.settle_toCounty : (s.settle).toCounty = s.toCounty := rfl

/-! ## A request turned away -/

@[simp] theorem State.turnAway_cp (code : Byte) (st : Status) : (s.turnAway code st).cp = ⟨.replying, [], none, some ⟨code, st, []⟩⟩ := rfl
@[simp] theorem State.turnAway_mode (code : Byte) (st : Status) : (s.turnAway code st).mode = s.mode := rfl
@[simp] theorem State.turnAway_listenReason (code : Byte) (st : Status) : (s.turnAway code st).listenReason = s.listenReason := rfl
@[simp] theorem State.turnAway_number (code : Byte) (st : Status) : (s.turnAway code st).number = s.number := rfl
@[simp] theorem State.turnAway_cfg (code : Byte) (st : Status) : (s.turnAway code st).cfg = s.cfg := rfl
@[simp] theorem State.turnAway_clock (code : Byte) (st : Status) : (s.turnAway code st).clock = s.clock := rfl
@[simp] theorem State.turnAway_mem (code : Byte) (st : Status) : (s.turnAway code st).mem = s.mem := rfl
@[simp] theorem State.turnAway_startWriteFail (code : Byte) (st : Status) : (s.turnAway code st).startWriteFail = s.startWriteFail := rfl
@[simp] theorem State.turnAway_restart (code : Byte) (st : Status) : (s.turnAway code st).restart = s.restart := rfl
@[simp] theorem State.turnAway_filters (code : Byte) (st : Status) : (s.turnAway code st).filters = s.filters := rfl
@[simp] theorem State.turnAway_channels (code : Byte) (st : Status) : (s.turnAway code st).channels = s.channels := rfl
@[simp] theorem State.turnAway_inputs (code : Byte) (st : Status) : (s.turnAway code st).inputs = s.inputs := rfl
@[simp] theorem State.turnAway_slc (code : Byte) (st : Status) : (s.turnAway code st).slc = s.slc := rfl
@[simp] theorem State.turnAway_signs (code : Byte) (st : Status) : (s.turnAway code st).signs = s.signs := rfl
@[simp] theorem State.turnAway_trunk (code : Byte) (st : Status) : (s.turnAway code st).trunk = s.trunk := rfl
@[simp] theorem State.turnAway_level (code : Byte) (st : Status) : (s.turnAway code st).level = s.level := rfl
@[simp] theorem State.turnAway_stack (code : Byte) (st : Status) : (s.turnAway code st).stack = s.stack := rfl
@[simp] theorem State.turnAway_attention (code : Byte) (st : Status) : (s.turnAway code st).attention = s.attention := rfl
@[simp] theorem State.turnAway_free (code : Byte) (st : Status) : (s.turnAway code st).free = s.free := rfl
@[simp] theorem State.turnAway_pending (code : Byte) (st : Status) : (s.turnAway code st).pending = s.pending := rfl
@[simp] theorem State.turnAway_toCounty (code : Byte) (st : Status) : (s.turnAway code st).toCounty = s.toCounty := rfl

/-! ## Local acknowledgement -/

@[simp] theorem State.localAck_toCounty (e : Entry) (op : Byte) : (s.localAck e op).toCounty = (s.toCounty.ackEntry s.ctx e op).offerAck s.ctx e op := rfl
@[simp] theorem State.localAck_mode (e : Entry) (op : Byte) : (s.localAck e op).mode = s.mode := rfl
@[simp] theorem State.localAck_listenReason (e : Entry) (op : Byte) : (s.localAck e op).listenReason = s.listenReason := rfl
@[simp] theorem State.localAck_number (e : Entry) (op : Byte) : (s.localAck e op).number = s.number := rfl
@[simp] theorem State.localAck_cfg (e : Entry) (op : Byte) : (s.localAck e op).cfg = s.cfg := rfl
@[simp] theorem State.localAck_clock (e : Entry) (op : Byte) : (s.localAck e op).clock = s.clock := rfl
@[simp] theorem State.localAck_mem (e : Entry) (op : Byte) : (s.localAck e op).mem = s.mem := rfl
@[simp] theorem State.localAck_startWriteFail (e : Entry) (op : Byte) : (s.localAck e op).startWriteFail = s.startWriteFail := rfl
@[simp] theorem State.localAck_restart (e : Entry) (op : Byte) : (s.localAck e op).restart = s.restart := rfl
@[simp] theorem State.localAck_filters (e : Entry) (op : Byte) : (s.localAck e op).filters = s.filters := rfl
@[simp] theorem State.localAck_channels (e : Entry) (op : Byte) : (s.localAck e op).channels = s.channels := rfl
@[simp] theorem State.localAck_inputs (e : Entry) (op : Byte) : (s.localAck e op).inputs = s.inputs := rfl
@[simp] theorem State.localAck_slc (e : Entry) (op : Byte) : (s.localAck e op).slc = s.slc := rfl
@[simp] theorem State.localAck_signs (e : Entry) (op : Byte) : (s.localAck e op).signs = s.signs := rfl
@[simp] theorem State.localAck_trunk (e : Entry) (op : Byte) : (s.localAck e op).trunk = s.trunk := rfl
@[simp] theorem State.localAck_level (e : Entry) (op : Byte) : (s.localAck e op).level = s.level := rfl
@[simp] theorem State.localAck_stack (e : Entry) (op : Byte) : (s.localAck e op).stack = s.stack := rfl
@[simp] theorem State.localAck_attention (e : Entry) (op : Byte) : (s.localAck e op).attention = s.attention := rfl
@[simp] theorem State.localAck_cp (e : Entry) (op : Byte) : (s.localAck e op).cp = s.cp := rfl
@[simp] theorem State.localAck_free (e : Entry) (op : Byte) : (s.localAck e op).free = s.free := rfl
@[simp] theorem State.localAck_pending (e : Entry) (op : Byte) : (s.localAck e op).pending = s.pending := rfl

/-! ## A change of an own point -/

@[simp] theorem State.declareChange_toCounty (p : Nat) (g : Stamp → Option Entry → Entry) : (s.declareChange p g).toCounty = s.toCounty.ownChange s.ctx p g := rfl
@[simp] theorem State.declareChange_mode (p : Nat) (g : Stamp → Option Entry → Entry) : (s.declareChange p g).mode = s.mode := rfl
@[simp] theorem State.declareChange_listenReason (p : Nat) (g : Stamp → Option Entry → Entry) : (s.declareChange p g).listenReason = s.listenReason := rfl
@[simp] theorem State.declareChange_number (p : Nat) (g : Stamp → Option Entry → Entry) : (s.declareChange p g).number = s.number := rfl
@[simp] theorem State.declareChange_cfg (p : Nat) (g : Stamp → Option Entry → Entry) : (s.declareChange p g).cfg = s.cfg := rfl
@[simp] theorem State.declareChange_clock (p : Nat) (g : Stamp → Option Entry → Entry) : (s.declareChange p g).clock = s.clock := rfl
@[simp] theorem State.declareChange_mem (p : Nat) (g : Stamp → Option Entry → Entry) : (s.declareChange p g).mem = s.mem := rfl
@[simp] theorem State.declareChange_startWriteFail (p : Nat) (g : Stamp → Option Entry → Entry) : (s.declareChange p g).startWriteFail = s.startWriteFail := rfl
@[simp] theorem State.declareChange_restart (p : Nat) (g : Stamp → Option Entry → Entry) : (s.declareChange p g).restart = s.restart := rfl
@[simp] theorem State.declareChange_filters (p : Nat) (g : Stamp → Option Entry → Entry) : (s.declareChange p g).filters = s.filters := rfl
@[simp] theorem State.declareChange_channels (p : Nat) (g : Stamp → Option Entry → Entry) : (s.declareChange p g).channels = s.channels := rfl
@[simp] theorem State.declareChange_inputs (p : Nat) (g : Stamp → Option Entry → Entry) : (s.declareChange p g).inputs = s.inputs := rfl
@[simp] theorem State.declareChange_slc (p : Nat) (g : Stamp → Option Entry → Entry) : (s.declareChange p g).slc = s.slc := rfl
@[simp] theorem State.declareChange_signs (p : Nat) (g : Stamp → Option Entry → Entry) : (s.declareChange p g).signs = s.signs := rfl
@[simp] theorem State.declareChange_trunk (p : Nat) (g : Stamp → Option Entry → Entry) : (s.declareChange p g).trunk = s.trunk := rfl
@[simp] theorem State.declareChange_level (p : Nat) (g : Stamp → Option Entry → Entry) : (s.declareChange p g).level = s.level := rfl
@[simp] theorem State.declareChange_stack (p : Nat) (g : Stamp → Option Entry → Entry) : (s.declareChange p g).stack = s.stack := rfl
@[simp] theorem State.declareChange_attention (p : Nat) (g : Stamp → Option Entry → Entry) : (s.declareChange p g).attention = s.attention := rfl
@[simp] theorem State.declareChange_cp (p : Nat) (g : Stamp → Option Entry → Entry) : (s.declareChange p g).cp = s.cp := rfl
@[simp] theorem State.declareChange_free (p : Nat) (g : Stamp → Option Entry → Entry) : (s.declareChange p g).free = s.free := rfl
@[simp] theorem State.declareChange_pending (p : Nat) (g : Stamp → Option Entry → Entry) : (s.declareChange p g).pending = s.pending := rfl

/-! ## The queue flushed -/

@[simp] theorem State.flush_queue : (s.flush).queue = (flushQueue s.ctx s.roll s.view s.toQueueSide).queue := rfl
@[simp] theorem State.flush_mode : (s.flush).mode = s.mode := rfl
@[simp] theorem State.flush_listenReason : (s.flush).listenReason = s.listenReason := rfl
@[simp] theorem State.flush_number : (s.flush).number = s.number := rfl
@[simp] theorem State.flush_cfg : (s.flush).cfg = s.cfg := rfl
@[simp] theorem State.flush_clock : (s.flush).clock = s.clock := rfl
@[simp] theorem State.flush_mem : (s.flush).mem = s.mem := rfl
@[simp] theorem State.flush_startWriteFail : (s.flush).startWriteFail = s.startWriteFail := rfl
@[simp] theorem State.flush_restart : (s.flush).restart = s.restart := rfl
@[simp] theorem State.flush_filters : (s.flush).filters = s.filters := rfl
@[simp] theorem State.flush_channels : (s.flush).channels = s.channels := rfl
@[simp] theorem State.flush_inputs : (s.flush).inputs = s.inputs := rfl
@[simp] theorem State.flush_slc : (s.flush).slc = s.slc := rfl
@[simp] theorem State.flush_signs : (s.flush).signs = s.signs := rfl
@[simp] theorem State.flush_trunk : (s.flush).trunk = s.trunk := rfl
@[simp] theorem State.flush_level : (s.flush).level = s.level := rfl
@[simp] theorem State.flush_stack : (s.flush).stack = s.stack := rfl
@[simp] theorem State.flush_attention : (s.flush).attention = s.attention := rfl
@[simp] theorem State.flush_cp : (s.flush).cp = s.cp := rfl
@[simp] theorem State.flush_free : (s.flush).free = s.free := rfl
@[simp] theorem State.flush_pending : (s.flush).pending = s.pending := rfl

/-! ## An own ALIVE offered -/

@[simp] theorem State.presence_toCounty : (s.presence).toCounty = s.toCounty.offerAlive s.ctx := rfl
@[simp] theorem State.presence_mode : (s.presence).mode = s.mode := rfl
@[simp] theorem State.presence_listenReason : (s.presence).listenReason = s.listenReason := rfl
@[simp] theorem State.presence_number : (s.presence).number = s.number := rfl
@[simp] theorem State.presence_cfg : (s.presence).cfg = s.cfg := rfl
@[simp] theorem State.presence_clock : (s.presence).clock = s.clock := rfl
@[simp] theorem State.presence_mem : (s.presence).mem = s.mem := rfl
@[simp] theorem State.presence_startWriteFail : (s.presence).startWriteFail = s.startWriteFail := rfl
@[simp] theorem State.presence_restart : (s.presence).restart = s.restart := rfl
@[simp] theorem State.presence_filters : (s.presence).filters = s.filters := rfl
@[simp] theorem State.presence_channels : (s.presence).channels = s.channels := rfl
@[simp] theorem State.presence_inputs : (s.presence).inputs = s.inputs := rfl
@[simp] theorem State.presence_slc : (s.presence).slc = s.slc := rfl
@[simp] theorem State.presence_signs : (s.presence).signs = s.signs := rfl
@[simp] theorem State.presence_trunk : (s.presence).trunk = s.trunk := rfl
@[simp] theorem State.presence_level : (s.presence).level = s.level := rfl
@[simp] theorem State.presence_stack : (s.presence).stack = s.stack := rfl
@[simp] theorem State.presence_attention : (s.presence).attention = s.attention := rfl
@[simp] theorem State.presence_cp : (s.presence).cp = s.cp := rfl
@[simp] theorem State.presence_free : (s.presence).free = s.free := rfl
@[simp] theorem State.presence_pending : (s.presence).pending = s.pending := rfl

/-! ## Resets -/

@[simp] theorem State.cleared_mode (m : StationMode) (op : Option MemOp) : (s.cleared m op).mode = m := rfl
@[simp] theorem State.cleared_loader (m : StationMode) (op : Option MemOp) : (s.cleared m op).loader = ⟨op, none, none⟩ := rfl
@[simp] theorem State.cleared_mem (m : StationMode) (op : Option MemOp) : (s.cleared m op).mem = s.mem := rfl
@[simp] theorem State.cleared_counters (m : StationMode) (op : Option MemOp) : (s.cleared m op).counters = s.counters := rfl
@[simp] theorem State.cleared_startWriteFail (m : StationMode) (op : Option MemOp) : (s.cleared m op).startWriteFail = s.startWriteFail := rfl
@[simp] theorem State.cleared_free (m : StationMode) (op : Option MemOp) : (s.cleared m op).free = s.free := rfl
@[simp] theorem State.cleared_pending (m : StationMode) (op : Option MemOp) : (s.cleared m op).pending = s.pending := rfl
@[simp] theorem State.cleared_view (m : StationMode) (op : Option MemOp) : (s.cleared m op).view = [] := rfl
@[simp] theorem State.cleared_queue (m : StationMode) (op : Option MemOp) : (s.cleared m op).queue = [] := rfl
@[simp] theorem State.cleared_condensed (m : StationMode) (op : Option MemOp) : (s.cleared m op).condensed = false := rfl
@[simp] theorem State.cleared_viewOverflow (m : StationMode) (op : Option MemOp) : (s.cleared m op).viewOverflow = false := rfl
@[simp] theorem State.cleared_duplicateStation (m : StationMode) (op : Option MemOp) : (s.cleared m op).duplicateStation = false := rfl
@[simp] theorem State.cleared_stampConflict (m : StationMode) (op : Option MemOp) : (s.cleared m op).stampConflict = false := rfl
@[simp] theorem State.cleared_attention (m : StationMode) (op : Option MemOp) : (s.cleared m op).attention = false := rfl
@[simp] theorem State.cleared_stack (m : StationMode) (op : Option MemOp) : (s.cleared m op).stack = [] := rfl
@[simp] theorem State.cleared_level (m : StationMode) (op : Option MemOp) : (s.cleared m op).level = 0 := rfl
@[simp] theorem State.cleared_cp (m : StationMode) (op : Option MemOp) : (s.cleared m op).cp = ⟨.hunting, [], none, none⟩ := rfl
@[simp] theorem State.cleared_number (m : StationMode) (op : Option MemOp) : (s.cleared m op).number = 0 := rfl
@[simp] theorem State.cleared_cfg (m : StationMode) (op : Option MemOp) : (s.cleared m op).cfg = Settings.listen := rfl
@[simp] theorem State.cleared_clock (m : StationMode) (op : Option MemOp) : (s.cleared m op).clock = ⟨0, 0⟩ := rfl
@[simp] theorem State.cleared_restart (m : StationMode) (op : Option MemOp) : (s.cleared m op).restart = .none := rfl
@[simp] theorem State.cleared_ownStart (m : StationMode) (op : Option MemOp) : (s.cleared m op).ownStart = 0 := rfl
@[simp] theorem State.cleared_nextChange (m : StationMode) (op : Option MemOp) : (s.cleared m op).nextChange = 0 := rfl
@[simp] theorem State.cleared_baseChange (m : StationMode) (op : Option MemOp) : (s.cleared m op).baseChange = 0 := rfl
@[simp] theorem State.cleared_listenReason (m : StationMode) (op : Option MemOp) : (s.cleared m op).listenReason = none := rfl
@[simp] theorem State.cleared_slc (m : StationMode) (op : Option MemOp) : (s.cleared m op).slc = ⟨.stopped, none, false, none, [], none, none⟩ := rfl
@[simp] theorem State.cleared_trunk (m : StationMode) (op : Option MemOp) : (s.cleared m op).trunk = { State.reset.trunk with cd := s.trunk.cd } := rfl
@[simp] theorem State.cleared_filters (m : StationMode) (op : Option MemOp) : (s.cleared m op).filters = State.reset.filters := rfl
@[simp] theorem State.cleared_channels (m : StationMode) (op : Option MemOp) : (s.cleared m op).channels = State.reset.channels := rfl
@[simp] theorem State.cleared_inputs (m : StationMode) (op : Option MemOp) : (s.cleared m op).inputs = State.reset.inputs := rfl
@[simp] theorem State.cleared_signs (m : StationMode) (op : Option MemOp) : (s.cleared m op).signs = State.reset.signs := rfl
@[simp] theorem State.cleared_roll (m : StationMode) (op : Option MemOp) : (s.cleared m op).roll = State.reset.roll := rfl
@[simp] theorem State.cleared_unsent (m : StationMode) (op : Option MemOp) : (s.cleared m op).unsent = State.reset.unsent := rfl

/-! ## The county side of a change inside it -/

@[simp] theorem County.offer_view (k : County) (c : Ctx) (x : QItem) : (k.offer c x).view = k.view := rfl
@[simp] theorem County.offer_viewOverflow (k : County) (c : Ctx) (x : QItem) : (k.offer c x).viewOverflow = k.viewOverflow := rfl
@[simp] theorem County.offer_roll (k : County) (c : Ctx) (x : QItem) : (k.offer c x).roll = k.roll := rfl
@[simp] theorem County.offer_duplicateStation (k : County) (c : Ctx) (x : QItem) : (k.offer c x).duplicateStation = k.duplicateStation := rfl
@[simp] theorem County.offer_stampConflict (k : County) (c : Ctx) (x : QItem) : (k.offer c x).stampConflict = k.stampConflict := rfl
@[simp] theorem County.offer_ownStart (k : County) (c : Ctx) (x : QItem) : (k.offer c x).ownStart = k.ownStart := rfl
@[simp] theorem County.offer_nextChange (k : County) (c : Ctx) (x : QItem) : (k.offer c x).nextChange = k.nextChange := rfl
@[simp] theorem County.offer_baseChange (k : County) (c : Ctx) (x : QItem) : (k.offer c x).baseChange = k.baseChange := rfl
@[simp] theorem County.offer_loader (k : County) (c : Ctx) (x : QItem) : (k.offer c x).loader = k.loader := rfl

@[simp] theorem County.notice_view (k : County) (c : Ctx) (o p : Nat) (st : Stamp) (l : List (Nat × Stamp)) : (k.notice c o p st l).view = k.view := rfl
@[simp] theorem County.notice_viewOverflow (k : County) (c : Ctx) (o p : Nat) (st : Stamp) (l : List (Nat × Stamp)) : (k.notice c o p st l).viewOverflow = k.viewOverflow := rfl
@[simp] theorem County.notice_roll (k : County) (c : Ctx) (o p : Nat) (st : Stamp) (l : List (Nat × Stamp)) : (k.notice c o p st l).roll = k.roll := rfl
@[simp] theorem County.notice_duplicateStation (k : County) (c : Ctx) (o p : Nat) (st : Stamp) (l : List (Nat × Stamp)) : (k.notice c o p st l).duplicateStation = k.duplicateStation := rfl
@[simp] theorem County.notice_stampConflict (k : County) (c : Ctx) (o p : Nat) (st : Stamp) (l : List (Nat × Stamp)) : (k.notice c o p st l).stampConflict = k.stampConflict := rfl
@[simp] theorem County.notice_ownStart (k : County) (c : Ctx) (o p : Nat) (st : Stamp) (l : List (Nat × Stamp)) : (k.notice c o p st l).ownStart = k.ownStart := rfl
@[simp] theorem County.notice_nextChange (k : County) (c : Ctx) (o p : Nat) (st : Stamp) (l : List (Nat × Stamp)) : (k.notice c o p st l).nextChange = k.nextChange := rfl
@[simp] theorem County.notice_baseChange (k : County) (c : Ctx) (o p : Nat) (st : Stamp) (l : List (Nat × Stamp)) : (k.notice c o p st l).baseChange = k.baseChange := rfl
@[simp] theorem County.notice_loader (k : County) (c : Ctx) (o p : Nat) (st : Stamp) (l : List (Nat × Stamp)) : (k.notice c o p st l).loader = k.loader := rfl

@[simp] theorem County.count_queue (k : County) (i : CounterId) (n : Nat) : (k.count i n).queue = k.queue := rfl
@[simp] theorem County.count_nextSeq (k : County) (i : CounterId) (n : Nat) : (k.count i n).nextSeq = k.nextSeq := rfl
@[simp] theorem County.count_condensed (k : County) (i : CounterId) (n : Nat) : (k.count i n).condensed = k.condensed := rfl
@[simp] theorem County.count_unsent (k : County) (i : CounterId) (n : Nat) : (k.count i n).unsent = k.unsent := rfl
@[simp] theorem County.count_view (k : County) (i : CounterId) (n : Nat) : (k.count i n).view = k.view := rfl
@[simp] theorem County.count_viewOverflow (k : County) (i : CounterId) (n : Nat) : (k.count i n).viewOverflow = k.viewOverflow := rfl
@[simp] theorem County.count_roll (k : County) (i : CounterId) (n : Nat) : (k.count i n).roll = k.roll := rfl
@[simp] theorem County.count_duplicateStation (k : County) (i : CounterId) (n : Nat) : (k.count i n).duplicateStation = k.duplicateStation := rfl
@[simp] theorem County.count_stampConflict (k : County) (i : CounterId) (n : Nat) : (k.count i n).stampConflict = k.stampConflict := rfl
@[simp] theorem County.count_ownStart (k : County) (i : CounterId) (n : Nat) : (k.count i n).ownStart = k.ownStart := rfl
@[simp] theorem County.count_nextChange (k : County) (i : CounterId) (n : Nat) : (k.count i n).nextChange = k.nextChange := rfl
@[simp] theorem County.count_baseChange (k : County) (i : CounterId) (n : Nat) : (k.count i n).baseChange = k.baseChange := rfl
@[simp] theorem County.count_loader (k : County) (i : CounterId) (n : Nat) : (k.count i n).loader = k.loader := rfl

@[simp] theorem County.setRecord_queue (k : County) (o : Nat) (r : RollRecord) : (k.setRecord o r).queue = k.queue := rfl
@[simp] theorem County.setRecord_nextSeq (k : County) (o : Nat) (r : RollRecord) : (k.setRecord o r).nextSeq = k.nextSeq := rfl
@[simp] theorem County.setRecord_condensed (k : County) (o : Nat) (r : RollRecord) : (k.setRecord o r).condensed = k.condensed := rfl
@[simp] theorem County.setRecord_unsent (k : County) (o : Nat) (r : RollRecord) : (k.setRecord o r).unsent = k.unsent := rfl
@[simp] theorem County.setRecord_counters (k : County) (o : Nat) (r : RollRecord) : (k.setRecord o r).counters = k.counters := rfl
@[simp] theorem County.setRecord_view (k : County) (o : Nat) (r : RollRecord) : (k.setRecord o r).view = k.view := rfl
@[simp] theorem County.setRecord_viewOverflow (k : County) (o : Nat) (r : RollRecord) : (k.setRecord o r).viewOverflow = k.viewOverflow := rfl
@[simp] theorem County.setRecord_duplicateStation (k : County) (o : Nat) (r : RollRecord) : (k.setRecord o r).duplicateStation = k.duplicateStation := rfl
@[simp] theorem County.setRecord_stampConflict (k : County) (o : Nat) (r : RollRecord) : (k.setRecord o r).stampConflict = k.stampConflict := rfl
@[simp] theorem County.setRecord_ownStart (k : County) (o : Nat) (r : RollRecord) : (k.setRecord o r).ownStart = k.ownStart := rfl
@[simp] theorem County.setRecord_nextChange (k : County) (o : Nat) (r : RollRecord) : (k.setRecord o r).nextChange = k.nextChange := rfl
@[simp] theorem County.setRecord_baseChange (k : County) (o : Nat) (r : RollRecord) : (k.setRecord o r).baseChange = k.baseChange := rfl
@[simp] theorem County.setRecord_loader (k : County) (o : Nat) (r : RollRecord) : (k.setRecord o r).loader = k.loader := rfl

@[simp] theorem County.setRecord_record (k : County) (o : Nat) (r : RollRecord) : (k.setRecord o r).roll = rollSet k.roll o r := rfl

/-! ## What an event sees of the state -/

@[simp] theorem State.ctx_mode : s.ctx.mode = s.mode := rfl
@[simp] theorem State.ctx_number : s.ctx.number = s.number := rfl
@[simp] theorem State.ctx_cfg : s.ctx.cfg = s.cfg := rfl
@[simp] theorem State.ctx_now : s.ctx.now = s.now := rfl

end Sys2Proof.Machine
end

