-- ==== Sys2Proof/Laws/Console.lean ====
section
/-! SUPPORT. What the operations of the Console Port do: the check byte, reading a request's parameters, taking and turning
away a request. -/

namespace Sys2Proof.Machine

/-! ## Sums and checks (Table 11.1) -/

theorem foldl_add_start (bs : List Byte) : ∀ a : Byte, bs.foldl (· + ·) a = a + bs.foldl (· + ·) 0 := by
  induction bs with
  | nil => intro a; simp
  | cons b bs ih =>
    intro a
    rw [List.foldl_cons, List.foldl_cons, ih (a + b), ih (0 + b)]
    simp [BitVec.add_assoc]

@[simp] theorem byteSum_nil : byteSum [] = 0 := rfl

@[simp] theorem byteSum_cons (b : Byte) (bs : List Byte) : byteSum (b :: bs) = b + byteSum bs := by
  unfold byteSum
  rw [List.foldl_cons, foldl_add_start]
  simp

@[simp] theorem byteSum_append (bs cs : List Byte) : byteSum (bs ++ cs) = byteSum bs + byteSum cs := by
  induction bs with
  | nil => simp
  | cons b bs ih => simp [ih, BitVec.add_assoc]

/-- The check byte makes the sum 0. -/
theorem byteSum_checkOf (bs : List Byte) : byteSum (bs ++ [checkOf bs]) = 0 := by
  rw [byteSum_append, byteSum_cons, byteSum_nil, checkOf]
  simp [BitVec.add_comm, BitVec.sub_eq_add_neg]

/-! ## Requests (Table 11.3) -/

/-- A request within its ranges is read back from its code and parameters. -/
theorem Request.parse_params (r : Request) (h : r.inRange = true) : Request.parse r.code r.params = .ok r := by
  cases r with
  | readTop n => simp [Request.code, Request.params, Request.parse, oneParameter, h]
  | readRoll st => simp [Request.code, Request.params, Request.parse, oneParameter, h]
  | acknowledge o p s c op =>
    simp [Request.code, Request.params, Request.parse, acknowledgeParameters, halfBytes, halfOf_halfBytes]
  | writeConfig off bs => simp [Request.code, Request.params, Request.parse, writeParameters, halfBytes, halfOf_halfBytes, h]
  | _ => rfl

/-! ## A request at the port (R173) -/

/-- A request that waits for no memory leaves the port REPLYING with its reply fixed, in the state its block left. -/
theorem State.takeRequest_answered {s : State} {r : Request} {t : State} {st : Status} {data : List Byte}
    (h : State.serve { s with cp := ⟨.replying, [], none, none⟩ } r = (t, some (st, data))) :
    s.takeRequest r = { t with cp := { t.cp with reply := some ⟨r.code, st, data⟩ } } := by
  simp [State.takeRequest, h]

/-- A WRITE CONFIG under way leaves no reply yet. -/
theorem State.takeRequest_waiting {s : State} {r : Request} {t : State}
    (h : State.serve { s with cp := ⟨.replying, [], none, none⟩ } r = (t, none)) : s.takeRequest r = t := by
  simp [State.takeRequest, h]

/-- A request command is taken where the port hunts for it. -/
theorem State.receive_ready {s : State} {r : Request} (h : s.live = true ∧ s.cp.port = .hunting ∧ r.inRange = true) :
    s.receive r = s.takeRequest r := by
  simp only [State.receive, h, and_self, if_true]

/-- Elsewhere its bytes meet the port one by one. -/
theorem State.receive_otherwise {s : State} {r : Request}
    (h : ¬ (s.live = true ∧ s.cp.port = .hunting ∧ r.inRange = true)) :
    s.receive r = r.frame.foldl (fun s b => s.consoleByte b false) s := by
  simp only [State.receive, h, if_false]

end Sys2Proof.Machine
end

