-- ==== Sys2Proof/Laws/Entries.lean ====
section
/-! SUPPORT. What the operations of Machine/Entries.lean and the creation of Machine/View.lean do: finding, placing,
changing and removing entries, the dispatch order, eviction. -/

namespace Sys2Proof.Machine

/-! ## Keys -/

theorem Entry.hasKey_iff (e : Entry) (o p : Nat) : e.hasKey o p = true ↔ e.origin = o ∧ e.point = p := by
  simp [Entry.hasKey]

@[simp] theorem Entry.hasKey_self (e : Entry) : e.hasKey e.origin e.point = true := by simp [Entry.hasKey]

theorem keyLt_iff (o p o' p' : Nat) : keyLt o p o' p' = true ↔ o < o' ∨ (o = o' ∧ p < p') := by simp [keyLt]

theorem keyLt_trans {a b c d e f : Nat} (h : keyLt a b c d = true) (h' : keyLt c d e f = true) : keyLt a b e f = true := by
  rw [keyLt_iff] at *
  omega

/-! ## Finding what was put -/

theorem findEntry_mem {v : List Entry} {o p : Nat} {e : Entry} (h : findEntry v o p = some e) :
    e ∈ v ∧ e.origin = o ∧ e.point = p :=
  ⟨List.mem_of_find?_eq_some h, (e.hasKey_iff o p).1 (List.find?_some (p := fun x : Entry => x.hasKey o p) h)⟩

theorem findEntry_none {v : List Entry} {o p : Nat} (h : findEntry v o p = none) {e : Entry} (he : e ∈ v) :
    ¬ (e.origin = o ∧ e.point = p) := by
  have := List.find?_eq_none.1 h e he
  rwa [Entry.hasKey_iff] at this

theorem findEntry_putEntry_self : ∀ (v : List Entry) (e : Entry), findEntry (putEntry v e) e.origin e.point = some e
  | [], e => by simp [putEntry, findEntry]
  | x :: v, e => by
    unfold putEntry
    split
    · simp [findEntry]
    · split
      · simp [findEntry]
      · rename_i hk
        have : x.hasKey e.origin e.point = false := by
          simp only [Entry.hasKey, decide_eq_false_iff_not]
          omega
        simpa [findEntry, this] using findEntry_putEntry_self v e

theorem findEntry_putEntry_ne : ∀ (v : List Entry) (e : Entry) {o p : Nat}, ¬ (e.origin = o ∧ e.point = p) →
    findEntry (putEntry v e) o p = findEntry v o p
  | [], e, o, p, h => by simp [putEntry, findEntry, Entry.hasKey, h]
  | x :: v, e, o, p, h => by
    have he : e.hasKey o p = false := by simpa [Entry.hasKey] using h
    unfold putEntry
    split
    · simp [findEntry, he]
    · split
      · rename_i hk
        have : x.hasKey o p = false := by
          simp only [Entry.hasKey, decide_eq_false_iff_not]
          omega
        simp [findEntry, he, this]
      · have ih := findEntry_putEntry_ne v e h
        simp only [findEntry] at ih ⊢
        by_cases hx : x.hasKey o p = true
        · simp [hx]
        · simp [hx, ih]

/-- A change in place that keeps keys changes the entry for the key and no other. -/
theorem findEntry_updateEntry (v : List Entry) (o p : Nat) (f : Entry → Entry)
    (hf : ∀ e, (f e).origin = e.origin ∧ (f e).point = e.point) (o' p' : Nat) :
    findEntry (updateEntry v o p f) o' p' =
      if o' = o ∧ p' = p then (findEntry v o p).map f else findEntry v o' p' := by
  have hkey : ∀ (x : Entry) (a b : Nat), (f x).hasKey a b = x.hasKey a b := fun x a b => by
    simp [Entry.hasKey, (hf x).1, (hf x).2]
  induction v with
  | nil => simp [updateEntry, findEntry]
  | cons x v ih =>
    have hg : ∀ a b : Nat, (if x.hasKey o p = true then f x else x).hasKey a b = x.hasKey a b := fun a b => by
      split
      · exact hkey x a b
      · rfl
    simp only [updateEntry, findEntry] at ih
    simp only [updateEntry, findEntry, List.map_cons, List.find?_cons, hg, ih]
    by_cases hk : o' = o ∧ p' = p
    · obtain ⟨rfl, rfl⟩ := hk
      cases hx : x.hasKey o' p' <;> simp
    · cases hx : x.hasKey o' p' with
      | false => simp [hk]
      | true =>
        have : x.hasKey o p = false := by
          rw [Entry.hasKey_iff] at hx
          simp only [Entry.hasKey, decide_eq_false_iff_not]
          omega
        simp [hk, this]

theorem findEntry_removeEntry_self (v : List Entry) (o p : Nat) : findEntry (removeEntry v o p) o p = none := by
  simp only [findEntry, removeEntry, List.find?_eq_none, List.mem_filter]
  intro e he
  simpa using he.2

/-! ## Sizes -/

theorem putEntry_length_le : ∀ (v : List Entry) (e : Entry), (putEntry v e).length ≤ v.length + 1
  | [], _ => Nat.le_refl _
  | x :: v, e => by
    have := putEntry_length_le v e
    unfold putEntry
    split
    · simp
    · split
      · simp
      · simp only [List.length_cons]
        omega

@[simp] theorem updateEntry_length (v : List Entry) (o p : Nat) (f : Entry → Entry) :
    (updateEntry v o p f).length = v.length := by simp [updateEntry]

theorem removeEntry_length_lt {v : List Entry} {e : Entry} (h : e ∈ v) :
    (removeEntry v e.origin e.point).length < v.length := by
  unfold removeEntry
  exact List.length_filter_lt_length_iff_exists.2 ⟨e, h, by simp⟩

/-! ## Key order -/

/-- Every later entry of a view in key order stands above the first. -/
theorem viewOrdered_head : ∀ {v : List Entry} {a : Entry}, viewOrdered (a :: v) = true → ∀ b ∈ v,
    keyLt a.origin a.point b.origin b.point = true
  | [], _, _, _, hb => by cases hb
  | c :: v, a, h, b, hb => by
    simp only [viewOrdered, Bool.and_eq_true] at h
    rcases List.mem_cons.1 hb with rfl | hb
    · exact h.1
    · exact keyLt_trans h.1 (viewOrdered_head h.2 b hb)

theorem viewOrdered_tail {v : List Entry} {a : Entry} (h : viewOrdered (a :: v) = true) : viewOrdered v = true := by
  cases v with
  | nil => rfl
  | cons b v => exact (Bool.and_eq_true _ _ ▸ h : _ ∧ _).2

theorem viewOrdered_cons {v : List Entry} {a : Entry} (hv : viewOrdered v = true)
    (h : ∀ b ∈ v, keyLt a.origin a.point b.origin b.point = true) : viewOrdered (a :: v) = true := by
  cases v with
  | nil => rfl
  | cons b v => simp [viewOrdered, hv, h b (by simp)]

theorem mem_putEntry : ∀ {v : List Entry} {e x : Entry}, x ∈ putEntry v e → x = e ∨ x ∈ v
  | [], e, x, h => by simpa [putEntry] using h
  | y :: v, e, x, h => by
    unfold putEntry at h
    split at h
    · simpa using h
    · split at h
      · rcases List.mem_cons.1 h with h | h
        · exact .inl h
        · exact .inr (List.mem_cons_of_mem _ h)
      · rcases List.mem_cons.1 h with h | h
        · exact .inr (by simp [h])
        · rcases mem_putEntry h with h | h
          · exact .inl h
          · exact .inr (List.mem_cons_of_mem _ h)

/-- Placing an entry keeps the key order (R85). -/
theorem viewOrdered_putEntry : ∀ {v : List Entry} (e : Entry), viewOrdered v = true → viewOrdered (putEntry v e) = true
  | [], _, _ => rfl
  | x :: v, e, h => by
    unfold putEntry
    split
    · rename_i hlt
      refine viewOrdered_cons h fun b hb => ?_
      rcases List.mem_cons.1 hb with rfl | hb
      · exact hlt
      · exact keyLt_trans hlt (viewOrdered_head h b hb)
    · rename_i hlt
      split
      · rename_i hk
        refine viewOrdered_cons (viewOrdered_tail h) fun b hb => ?_
        rw [hk.1, hk.2]
        exact viewOrdered_head h b hb
      · rename_i hk
        refine viewOrdered_cons (viewOrdered_putEntry e (viewOrdered_tail h)) fun b hb => ?_
        rcases mem_putEntry hb with rfl | hb
        · rw [keyLt_iff] at *
          omega
        · exact viewOrdered_head h b hb

/-- A change that keeps keys keeps the key order. -/
theorem viewOrdered_map : ∀ {v : List Entry} (f : Entry → Entry)
    (_ : ∀ e ∈ v, (f e).origin = e.origin ∧ (f e).point = e.point), viewOrdered v = true → viewOrdered (v.map f) = true
  | [], _, _, _ => rfl
  | x :: v, f, hf, h => by
    rw [List.map_cons]
    refine viewOrdered_cons (viewOrdered_map f (fun e he => hf e (List.mem_cons_of_mem _ he)) (viewOrdered_tail h)) ?_
    intro b hb
    obtain ⟨y, hy, rfl⟩ := List.mem_map.1 hb
    rw [(hf x (by simp)).1, (hf x (by simp)).2, (hf y (List.mem_cons_of_mem _ hy)).1,
      (hf y (List.mem_cons_of_mem _ hy)).2]
    exact viewOrdered_head h y hy

/-- Putting an entry whose key the view holds, into a view in key order, does not lengthen it. -/
theorem putEntry_length_held : ∀ {v : List Entry} {e : Entry}, viewOrdered v = true →
    findEntry v e.origin e.point ≠ none → (putEntry v e).length = v.length
  | [], e, _, h => by simp [findEntry] at h
  | x :: v, e, ho, h => by
    unfold putEntry
    by_cases hk : e.origin = x.origin ∧ e.point = x.point
    · have hn : ¬ keyLt e.origin e.point x.origin x.point = true := by
        rw [keyLt_iff]
        omega
      simp [hk] at hn ⊢
      simp [hn]
    · have hx : x.hasKey e.origin e.point = false := by
        simp only [Entry.hasKey, decide_eq_false_iff_not]
        omega
      have h' : findEntry v e.origin e.point ≠ none := by simpa [findEntry, hx] using h
      have hlt : ¬ keyLt e.origin e.point x.origin x.point = true := fun hc => by
        obtain ⟨z, hz⟩ := Option.ne_none_iff_exists'.1 h'
        have hm := findEntry_mem hz
        have hxz := viewOrdered_head ho z hm.1
        rw [keyLt_iff] at hc hxz
        omega
      simp only [hlt, hk, if_false, List.length_cons, Bool.false_eq_true]
      rw [putEntry_length_held (viewOrdered_tail ho) h']

/-- Leaving entries out keeps the key order. -/
theorem viewOrdered_filter : ∀ {v : List Entry} (f : Entry → Bool), viewOrdered v = true →
    viewOrdered (v.filter f) = true
  | [], _, _ => rfl
  | x :: v, f, h => by
    rw [List.filter_cons]
    split
    · exact viewOrdered_cons (viewOrdered_filter f (viewOrdered_tail h)) fun b hb =>
        viewOrdered_head h b (List.mem_filter.1 hb).1
    · exact viewOrdered_filter f (viewOrdered_tail h)

/-! ## Eviction (R104, R105) -/

theorem firstBy_mem {before : Entry → Entry → Bool} {l : List Entry} :
    ∀ {e : Entry}, firstBy before l = some e → e ∈ l := by
  induction l with
  | nil => intro e h; cases h
  | cons x l ih =>
    intro e h
    rw [firstBy] at h
    cases hy : firstBy before l with
    | none => simp_all
    | some y =>
      have := ih hy
      rw [hy] at h
      dsimp only at h
      split at h <;> cases h
      · exact List.mem_cons_of_mem _ this
      · exact List.mem_cons_self

/-- An evicted entry is held and is not own. -/
theorem evictionChoice_mem {now : Time} {v : List Entry} {limit : Option Nat} {e : Entry}
    (h : evictionChoice now v limit = some e) : e ∈ v ∧ e.own = false := by
  have key : ∀ (before : Entry → Entry → Bool) (f : Entry → Bool),
      firstBy before ((v.filter fun e => !e.own).filter f) = some e → e ∈ v ∧ e.own = false := by
    intro before f hf
    have := List.mem_filter.1 (List.mem_filter.1 (firstBy_mem hf)).1
    exact ⟨this.1, by simpa using this.2⟩
  simp only [evictionChoice] at h
  split at h
  · rename_i x hx
    cases h
    exact key _ _ hx
  · exact key _ _ h

/-! ## Creation (R85, R104 to R106) -/

/-- What a creation can do: it stores the entry, in a free place or in the place of an evicted one, or it is refused. -/
theorem createEntry_cases (c : Ctx) (e : Entry) (v : ViewSide) :
    (createEntry c e v = ({ v with view := putEntry v.view e }, true) ∧ v.view.length < viewCapacity) ∨
    (∃ x, evictionChoice c.now v.view (if e.own then none else some e.severity) = some x ∧
      createEntry c e v =
        (ViewSide.count { v with view := putEntry (removeEntry v.view x.origin x.point) e } .viewEvictions, true) ∧
      viewCapacity ≤ v.view.length) ∨
    (evictionChoice c.now v.view (if e.own then none else some e.severity) = none ∧
      createEntry c e v = (ViewSide.count { v with viewOverflow := true } .viewRefusals, false) ∧
      viewCapacity ≤ v.view.length) := by
  unfold createEntry
  split
  · exact .inl ⟨rfl, by assumption⟩
  · rename_i hl
    split
    · rename_i x hx
      exact .inr (.inl ⟨x, hx, rfl, by omega⟩)
    · rename_i hx
      exact .inr (.inr ⟨hx, rfl, by omega⟩)

/-- A creation keeps the bound of the view. -/
theorem createEntry_length {c : Ctx} {e : Entry} {v : ViewSide} (h : v.view.length ≤ viewCapacity) :
    (createEntry c e v).1.view.length ≤ viewCapacity := by
  rcases createEntry_cases c e v with ⟨h1, h2⟩ | ⟨x, hx, h1, _⟩ | ⟨_, h1, _⟩
  · rw [h1]
    exact Nat.le_trans (putEntry_length_le _ _) h2
  · rw [h1]
    have := putEntry_length_le (removeEntry v.view x.origin x.point) e
    have := removeEntry_length_lt (evictionChoice_mem hx).1
    show (putEntry (removeEntry v.view x.origin x.point) e).length ≤ viewCapacity
    omega
  · rw [h1]
    exact h

/-- A creation keeps the key order. -/
theorem createEntry_ordered {c : Ctx} {e : Entry} {v : ViewSide} (h : viewOrdered v.view = true) :
    viewOrdered (createEntry c e v).1.view = true := by
  rcases createEntry_cases c e v with ⟨h1, _⟩ | ⟨x, _, h1, _⟩ | ⟨_, h1, _⟩
  · rw [h1]
    exact viewOrdered_putEntry e h
  · rw [h1]
    exact viewOrdered_putEntry e (viewOrdered_filter _ h)
  · rw [h1]
    exact h

/-! ## The dispatch order (R107) -/

theorem mem_dispatchInsert {now : Time} {e x : Entry} : ∀ {l : List Entry},
    x ∈ dispatchInsert now e l ↔ x = e ∨ x ∈ l
  | [] => by simp [dispatchInsert]
  | y :: l => by
    unfold dispatchInsert
    split
    · simp
    · simp [mem_dispatchInsert (l := l)]
      tauto

/-- The dispatch order holds the entries that have a group. -/
theorem mem_dispatchOrder {now : Time} {v : List Entry} {e : Entry} :
    e ∈ dispatchOrder now v ↔ e ∈ v ∧ e.group.isSome = true := by
  have h : ∀ l : List Entry, e ∈ l.foldr (dispatchInsert now) [] ↔ e ∈ l := by
    intro l
    induction l with
    | nil => simp
    | cons a l ih => simp [mem_dispatchInsert, ih]
  unfold dispatchOrder
  rw [h, List.mem_filter]

end Sys2Proof.Machine
end

