-- ==== Sys2Proof/Laws/Filter.lean ====
section
/-! SUPPORT. What a change of an own point does (R13, R16 to R19), said once: the stamp, the stored entry, the offer. -/

namespace Sys2Proof.Machine

theorem County.takeStamp_free {c : Ctx} {k : County} (h : (k.nextChange - k.baseChange).toNat ≤ 32767) :
    k.takeStamp c = ({ k with nextChange := k.nextChange + 1 }, ⟨k.ownStart, k.nextChange⟩) := by
  unfold County.takeStamp
  rw [if_pos h]

theorem County.putOwn_room {c : Ctx} {e : Entry} {k : County}
    (h : k.view.length < viewCapacity ∨ (findEntry k.view e.origin e.point).isSome = true) :
    k.putOwn c e = { k with view := putEntry k.view e } := by
  unfold County.putOwn
  split
  · rfl
  · rename_i hn
    have hl : k.view.length < viewCapacity := by simpa [hn] using h
    simp [createEntry, hl]

/-- With a stamp free and room in the view, a change stores the entry built from the next stamp and offers its item. -/
theorem County.ownChange_room {c : Ctx} {p : Nat} {entry : Stamp → Option Entry → Entry} {k : County} {e : Entry}
    (h : (k.nextChange - k.baseChange).toNat ≤ 32767)
    (he : entry ⟨k.ownStart, k.nextChange⟩ (findEntry k.view c.number p) = e) (ho : e.origin = c.number) (hp : e.point = p)
    (hr : k.view.length < viewCapacity ∨ (findEntry k.view c.number p).isSome = true) :
    k.ownChange c p entry = County.offer c ⟨.fault (e.item c), e.severity, .own, 0, 0⟩
      { k with view := putEntry k.view e, nextChange := k.nextChange + 1 } := by
  unfold County.ownChange
  rw [County.takeStamp_free h]
  simp only [he]
  rw [County.putOwn_room (by rw [ho, hp]; exact hr)]
  unfold County.offerOwn
  have hf : findEntry (putEntry k.view e) c.number p = some e := by
    rw [← ho, ← hp]
    exact findEntry_putEntry_self _ _
  simp only [hf]

end Sys2Proof.Machine
end

