-- ==== Sys2Proof/Laws/Queue.lean ====
section
/-! SUPPORT. What the operations of Machine/Queue.lean do to the total charge (R123): each keeps it within the limit. -/

namespace Sys2Proof.Machine

/-! ## Sums -/

@[simp] theorem totalCharge_nil : totalCharge [] = 0 := rfl

@[simp] theorem totalCharge_cons (x : QItem) (q : List QItem) : totalCharge (x :: q) = x.item.charge + totalCharge q := rfl

@[simp] theorem totalCharge_append : ∀ q r : List QItem, totalCharge (q ++ r) = totalCharge q + totalCharge r
  | [], r => by simp
  | x :: q, r => by simp [totalCharge_append q r, Nat.add_assoc]

@[simp] theorem totalCharge_reverse : ∀ q : List QItem, totalCharge q.reverse = totalCharge q
  | [] => rfl
  | x :: q => by simp [totalCharge_reverse q, Nat.add_comm]

theorem totalCharge_filter_le (f : QItem → Bool) : ∀ q : List QItem, totalCharge (q.filter f) ≤ totalCharge q
  | [] => Nat.le_refl _
  | x :: q => by
    have := totalCharge_filter_le f q
    rw [List.filter_cons]
    split <;> simp only [totalCharge_cons] <;> omega

/-- A change that leaves each item's charge leaves the total. -/
theorem totalCharge_map (f : QItem → QItem) (hf : ∀ x, (f x).item.charge = x.item.charge) :
    ∀ q : List QItem, totalCharge (q.map f) = totalCharge q
  | [] => rfl
  | x :: q => by simp [hf, totalCharge_map f hf q]

/-- An item joins with its charge (R125). -/
@[simp] theorem totalCharge_enqueue (x : QItem) : ∀ q : List QItem, totalCharge (enqueue q x) = totalCharge q + x.item.charge
  | [] => by simp [enqueue]
  | y :: q => by
    unfold enqueue
    split
    · simp [totalCharge_enqueue x q, Nat.add_assoc]
    · simp only [totalCharge_cons]
      omega

/-! ## Charges of items (Table 8.1) -/

/-- Every FAULT takes 20 bytes, with or without its optional parts. -/
@[simp] theorem charge_fault (f : FaultNews) : (Item.fault f).charge = 20 := by
  cases h : f.ack <;> cases h' : f.affected <;> simp [Item.charge, Item.size, h, h']

@[simp] theorem charge_ack (a : AckNews) : (Item.ack a).charge = 16 := by simp [Item.charge, Item.size]

@[simp] theorem charge_alive (a : AliveNews) : (Item.alive a).charge = 12 := by simp [Item.charge, Item.size]

theorem charge_compact (c : CompactNews) : (Item.compact c).charge = (8 + 5 * c.points.length + 3) / 4 * 4 + 4 := rfl

/-- A COMPACT with some of its points takes no more than before (R128). -/
theorem charge_compactOf_le {view : List Entry} {c : CompactNews} {f : CompactPoint → Bool} {i : Item}
    (h : compactOf view { c with points := c.points.filter f } = some i) : i.charge ≤ (Item.compact c).charge := by
  have hl := List.length_filter_le f c.points
  unfold compactOf at h
  split at h
  · cases h
  · rename_i x hx
    simp only at hx
    rw [hx] at hl
    cases h
    simp only [List.length_cons, List.length_nil] at hl
    rw [charge_fault, charge_compact]
    omega
  · cases h
    rw [charge_compact, charge_compact]
    simp only
    omega

theorem charge_withoutKey_le {view : List Entry} {p : Nat} {x y : QItem} (h : withoutKey view p x = some y) :
    y.item.charge ≤ x.item.charge := by
  unfold withoutKey at h
  split at h
  · rename_i c hc
    obtain ⟨i, hi, rfl⟩ := Option.map_eq_some_iff.1 h
    rw [hc]
    exact charge_compactOf_le hi
  · cases h
  · cases h
  · cases h

/-- Replacement never raises the total (R128). -/
theorem totalCharge_replaceKey_le (view : List Entry) (o p : Nat) : ∀ q : List QItem,
    totalCharge (replaceKey view o p q) ≤ totalCharge q
  | [] => Nat.le_refl _
  | x :: q => by
    have ih := totalCharge_replaceKey_le view o p q
    unfold replaceKey at ih ⊢
    rw [List.filterMap_cons]
    split
    · simp only [totalCharge_cons]
      omega
    · rename_i y hy
      have : y.item.charge ≤ x.item.charge := by
        split at hy
        · exact charge_withoutKey_le hy
        · cases hy
          exact Nat.le_refl _
      simp only [totalCharge_cons]
      omega

/-! ## Eviction and fitting in (R130) -/

/-- Eviction parts the queue: what is kept and what is evicted have the charge of the whole. -/
theorem evictBack_charge (sev : Nat) : ∀ (q : List QItem) (n : Nat),
    totalCharge (evictBack sev q n).1 + totalCharge (evictBack sev q n).2 = totalCharge q
  | [], _ => rfl
  | x :: q, n => by
    unfold evictBack
    split
    · simp
    · split
      · have := evictBack_charge sev q (n - x.item.charge)
        simp only [totalCharge_cons]
        omega
      · simp

/-- Only items of a lower severity are evicted. -/
theorem evictBack_lower (sev : Nat) : ∀ (q : List QItem) (n : Nat) (x : QItem), x ∈ (evictBack sev q n).2 →
    x.severity < sev
  | [], _, x, h => by cases h
  | y :: q, n, x, h => by
    unfold evictBack at h
    split at h
    · cases h
    · split at h
      · rename_i hy
        rcases List.mem_cons.1 h with rfl | h
        · exact hy
        · exact evictBack_lower sev q _ x h
      · cases h

@[simp] theorem QueueSide.count_queue (q : QueueSide) (i : CounterId) (n : Nat) : (q.count i n).queue = q.queue := rfl
@[simp] theorem QueueSide.count_unsent (q : QueueSide) (i : CounterId) (n : Nat) : (q.count i n).unsent = q.unsent := rfl
@[simp] theorem QueueSide.count_condensed (q : QueueSide) (i : CounterId) (n : Nat) :
    (q.count i n).condensed = q.condensed := rfl

@[simp] theorem QueueSide.placed_fst (q : QueueSide) : q.placed.1 = q := rfl
@[simp] theorem QueueSide.placed_snd (q : QueueSide) : q.placed.2 = totalCharge q.queue := rfl

/-- Fitting in ends within the limit. -/
theorem fitIn_charge {c : Ctx} {x : QItem} {wanted otherwise : List QItem} {q : QueueSide}
    (h : totalCharge otherwise ≤ chargeLimit) : totalCharge (fitIn c x wanted otherwise q).1.queue ≤ chargeLimit := by
  simp only [fitIn]
  split
  · simpa using by assumption
  · simpa using h

theorem insertOffer_charge {c : Ctx} {view : List Entry} {x : QItem} {q : QueueSide}
    (h : totalCharge q.queue ≤ chargeLimit) : totalCharge (insertOffer c view x q).1.queue ≤ chargeLimit := by
  unfold insertOffer
  refine fitIn_charge ?_
  have hfold : ∀ (ps : List Nat) (o : Nat) (r : List QItem), totalCharge r ≤ chargeLimit →
      totalCharge (ps.foldl (fun r p => replaceKey view o p r) r) ≤ chargeLimit := by
    intro ps o
    induction ps with
    | nil => intro r hr; exact hr
    | cons p ps ih => intro r hr; exact ih _ (Nat.le_trans (totalCharge_replaceKey_le view o p r) hr)
  exact hfold _ _ _ h

/-! ## Merging (R129, R134) -/

/-- The merge of condensed mode raises the total by no more than its target's growth. -/
theorem mergeFirst_charge {c : Ctx} {view : List Entry} {f : FaultNews} {t : QItem} : ∀ {q : List QItem},
    q.find? (mergeTarget c f) = some t →
    totalCharge (mergeFirst c view f q) + t.item.charge ≤ totalCharge q + (mergeInto c f t).item.charge
  | [], h => by cases h
  | x :: q, h => by
    rw [List.find?_cons] at h
    unfold mergeFirst
    split at h
    · rename_i hx
      cases h
      have := totalCharge_replaceKey_le view f.origin f.point q
      simp only [hx, if_true, totalCharge_cons]
      omega
    · rename_i hx
      have ih := mergeFirst_charge (view := view) h
      have := totalCharge_replaceKey_le view f.origin f.point [x]
      simp only [totalCharge_cons, totalCharge_nil] at this
      simp only [hx, Bool.false_eq_true, if_false, totalCharge_append, totalCharge_cons]
      omega

theorem condensedMerge_charge {c : Ctx} {view : List Entry} {x : QItem} {q r : QueueSide}
    (h : condensedMerge c view x q = some r) : totalCharge r.queue ≤ chargeLimit := by
  unfold condensedMerge at h
  split at h
  · split at h
    · split at h
      · cases h
      · rename_i t ht
        split at h
        · rename_i hfit
          cases h
          have := mergeFirst_charge (view := view) ht
          simp only [QueueSide.count_queue]
          omega
        · cases h
    · cases h
  · cases h
  · cases h
  · cases h

@[simp] theorem totalCharge_mergeAck (a : AckNews) (q : List QItem) : totalCharge (mergeAck a q) = totalCharge q := by
  refine totalCharge_map _ (fun x => ?_) q
  split
  · rename_i f hf
    split
    · rw [hf, charge_fault, charge_fault]
    · rfl
  · rfl
  · rfl
  · rfl

theorem offerAck_charge {c : Ctx} {view : List Entry} {x : QItem} {a : AckNews} {q : QueueSide}
    (h : totalCharge q.queue ≤ chargeLimit) : totalCharge (offerAck c view x a q).1.queue ≤ chargeLimit := by
  unfold offerAck
  split
  · exact insertOffer_charge h
  · split
    · split
      · split
        · exact h
        · simpa using h
      · exact fitIn_charge h
      · exact insertOffer_charge h
      · exact insertOffer_charge h
    · exact insertOffer_charge h

/-! ## Whole offers (R126, R132, R135, R136, R140, R115) -/

theorem placeOffer_charge {c : Ctx} {view : List Entry} {x : QItem} {q : QueueSide}
    (h : totalCharge q.queue ≤ chargeLimit) : totalCharge (placeOffer c view x q).1.queue ≤ chargeLimit := by
  unfold placeOffer
  split
  · simpa using h
  · split
    · rename_i r hr
      split at hr
      · exact condensedMerge_charge hr
      · cases hr
    · split
      · exact offerAck_charge h
      · exact insertOffer_charge h
      · exact insertOffer_charge h
      · exact insertOffer_charge h

@[simp] theorem testAt_queue (c : Ctx) (n : Nat) (q : QueueSide) : (testAt c n q).queue = q.queue := by
  unfold testAt
  split
  · rfl
  · split <;> rfl

@[simp] theorem testCondensed_queue (c : Ctx) (q : QueueSide) : (testCondensed c q).queue = q.queue := testAt_queue ..

/-- A second test at the same total charge says what the first said. -/
@[simp] theorem testAt_testAt (c : Ctx) (n : Nat) (q : QueueSide) : testAt c n (testAt c n q) = testAt c n q := by
  unfold testAt
  split
  · rfl
  · split <;> rfl

/-- Outside condensed mode a test on the way to a higher total is covered by the test at its end (R132). -/
theorem testAt_rising {c : Ctx} {m n : Nat} {q : QueueSide} (h : m ≤ n) (hq : q.condensed = false) :
    testAt c n (testAt c m q) = testAt c n q := by
  rcases q with ⟨_, _, _, _, _⟩
  subst hq
  unfold testAt
  split
  · split
    · rfl
    · split <;> rfl
  · split
    · split
      · omega
      · split <;> rfl
    · split
      · omega
      · split <;> rfl

/-- What an offer that reaches the queue leaves: the tests after its removals and after its insertion (R126, R132). -/
theorem offerCore_of_check {c : Ctx} {roll : Vector RollRecord 240} {view : List Entry} {x y : QItem} {q : QueueSide}
    (hm : c.mode = .run) (ho : olderThanRoll c roll x.item = false) (hk : perKeyCheck view q.queue x = some y) :
    offerCore c roll view x q =
      testCondensed c (testAt c (placeOffer c view y q).2 (placeOffer c view y q).1) := by
  simp [offerCore, offerTested, hm, ho, hk]

theorem offerCore_charge {c : Ctx} {roll : Vector RollRecord 240} {view : List Entry} {x : QItem} {q : QueueSide}
    (h : totalCharge q.queue ≤ chargeLimit) : totalCharge (offerCore c roll view x q).queue ≤ chargeLimit := by
  unfold offerCore offerTested
  split
  · split
    · exact h
    · split
      · exact h
      · simp only [testCondensed_queue, testAt_queue]
        exact placeOffer_charge h
  · exact h

theorem resyncPass_charge {c : Ctx} {roll : Vector RollRecord 240} {view : List Entry} {q : QueueSide}
    (h : totalCharge q.queue ≤ chargeLimit) : totalCharge (resyncPass c roll view q).queue ≤ chargeLimit := by
  unfold resyncPass
  generalize view.filter (fun e => e.own && tget q.unsent e.point false) = es
  induction es generalizing q with
  | nil => exact h
  | cons e es ih =>
    rw [List.foldl_cons]
    exact ih (offerCore_charge (q := { q with unsent := tset q.unsent e.point false }) h)

theorem afterChange_charge {c : Ctx} {roll : Vector RollRecord 240} {view : List Entry} {before after : QueueSide}
    (h : totalCharge after.queue ≤ chargeLimit) :
    totalCharge (afterChange c roll view before after).queue ≤ chargeLimit := by
  simp only [afterChange]
  split
  · exact resyncPass_charge (by simpa using h)
  · simpa using h

/-- An offer, with everything that follows it, ends within the limit. -/
theorem offerItem_charge {c : Ctx} {roll : Vector RollRecord 240} {view : List Entry} {x : QItem} {q : QueueSide}
    (h : totalCharge q.queue ≤ chargeLimit) : totalCharge (offerItem c roll view x q).queue ≤ chargeLimit := by
  have hc := offerCore_charge (c := c) (roll := roll) (view := view) (x := x) h
  simp only [offerItem]
  split
  · exact resyncPass_charge hc
  · exact hc

theorem duplicateNotice_charge {c : Ctx} {roll : Vector RollRecord 240} {view : List Entry} {o p : Nat} {st : Stamp}
    {earlier : List (Nat × Stamp)} {q : QueueSide} (h : totalCharge q.queue ≤ chargeLimit) :
    totalCharge (duplicateNotice c roll view o p st earlier q).queue ≤ chargeLimit := by
  unfold duplicateNotice
  split
  · exact h
  · split
    · split
      · exact afterChange_charge (Nat.le_trans (totalCharge_filter_le _ _) h)
      · rw [show totalCharge _ = _ from totalCharge_map _ (fun x => by split <;> rfl) q.queue]
        exact h
    · exact h

theorem purgeOrigin_charge {c : Ctx} {roll : Vector RollRecord 240} {view : List Entry} {o : Nat} {start : Half}
    {q : QueueSide} (h : totalCharge q.queue ≤ chargeLimit) :
    totalCharge (purgeOrigin c roll view o start q).queue ≤ chargeLimit :=
  afterChange_charge (Nat.le_trans (totalCharge_filter_le _ _) h)

theorem flushQueue_charge (c : Ctx) (roll : Vector RollRecord 240) (view : List Entry) (q : QueueSide) :
    totalCharge (flushQueue c roll view q).queue ≤ chargeLimit :=
  resyncPass_charge (Nat.zero_le _)

/-! ## Offers of keys that no queued item covers (R126, R128) -/

theorem QueueSide.count_zero (q : QueueSide) (i : CounterId) : q.count i 0 = q := by
  have hi : i.index < 16 := by cases i <;> decide
  have h : tset q.counters i.index (q.counter i) = q.counters := by
    ext j hj
    simp only [tset, QueueSide.counter, tget, Vector.getElem_setIfInBounds]
    split
    · rename_i hij
      subst hij
      simp [hi]
    · rfl
  unfold QueueSide.count Counter.bumps
  rw [h]

theorem replaceKey_uncovered {view : List Entry} {o p : Nat} {q : List QItem} (h : covering q o p = none) :
    replaceKey view o p q = q := by
  unfold covering at h
  rw [List.find?_eq_none] at h
  unfold replaceKey
  rw [List.filterMap_congr (g := some)]
  · simp
  · intro x hx
    have := h x hx
    simp_all

theorem keyBlocked_uncovered {q : List QItem} {u : Purpose} {o p : Nat} {st : Stamp} (h : covering q o p = none) :
    keyBlocked q u o p st = false := by
  simp [keyBlocked, h]

theorem replaceKeys_uncovered {view : List Entry} {o : Nat} {q : List QItem} : ∀ {ps : List Nat},
    (∀ p ∈ ps, covering q o p = none) → ps.foldl (fun l p => replaceKey view o p l) q = q
  | [], _ => rfl
  | p :: ps, h => by
    rw [List.foldl_cons, replaceKey_uncovered (h p (by simp))]
    exact replaceKeys_uncovered fun r hr => h r (by simp [hr])

theorem perKeyCheck_uncovered {view : List Entry} {q : List QItem} {x : QItem}
    (h : ∀ p ∈ x.item.points, covering q x.item.origin p = none)
    (h2 : ∀ n, x.item = .compact n → 2 ≤ n.points.length) : perKeyCheck view q x = some x := by
  unfold perKeyCheck
  rcases hx : x.item with f | a | n | a
  · simp [hx, Item.points, Item.origin] at h
    simp [keyBlocked_uncovered h]
  · simp [hx, Item.points, Item.origin] at h
    simp [keyBlocked_uncovered h]
  · have hl := h2 n hx
    simp [hx, Item.points, Item.origin] at h
    have hf : n.points.filter (fun y => !keyBlocked q x.purpose n.origin y.point ⟨n.start, y.change⟩) = n.points := by
      rw [List.filter_eq_self]
      intro y hy
      simp [keyBlocked_uncovered (h y hy)]
    simp only [hf]
    cases x
    simp at hx
    subst hx
    rcases n with ⟨_, _, _, _, _, _, ps⟩
    match ps, hl with
    | a :: b :: l, _ => simp [compactOf]
  · simp [hx, Item.points, Item.origin] at h
    simp [keyBlocked_uncovered h]

/-- Behind every item of its severity or a higher one, before every lower one (R125). -/
theorem enqueue_between {y : QItem} {b : List QItem} (hb : ∀ z ∈ b, z.severity < y.severity) : ∀ {a : List QItem},
    (∀ z ∈ a, y.severity ≤ z.severity) → enqueue (a ++ b) y = a ++ y :: b
  | [], _ => by
    cases b with
    | nil => rfl
    | cons z b => simp [enqueue, Nat.not_le.2 (hb z (by simp))]
  | z :: a, ha => by
    have h := enqueue_between hb (a := a) (fun w hw => ha w (List.mem_cons_of_mem z hw))
    simp [enqueue, ha z (by simp), h]

end Sys2Proof.Machine
end

