-- ==== Sys2Proof/Laws/Roll.lean ====
section
/-! SUPPORT. What the operations of Machine/Roll.lean do with a heard start count: the roll from before a bulletin, the epoch
check of an item, which merge a heard item of another origin goes to, and the own record at a start. -/

namespace Sys2Proof.Machine

/-- The start count makes the station known, or advances its epoch (R112). -/
def County.newsOfStart (k : County) (o : Nat) (start : Half) : Prop :=
  (rollGet k.roll o).newest = none ∨ ∃ n, (rollGet k.roll o).newest = some n ∧ start ≠ n ∧ countTakenNewer start n = true

/-- The roll from before a bulletin forgets a station whose start count is news. -/
theorem County.notePrior_news {k : County} {o : Nat} {start : Half} (prior : Vector RollRecord 240)
    (h : k.newsOfStart o start) : k.notePrior o start prior = rollSet prior o {} := by
  unfold County.notePrior County.record
  rcases h with h | ⟨n, h, hne, hnew⟩
  · simp [h]
  · simp [h, hne, hnew]

/-- And keeps every other. -/
theorem County.notePrior_keeps {k : County} {o : Nat} {start : Half} (prior : Vector RollRecord 240)
    (h : ¬ k.newsOfStart o start) : k.notePrior o start prior = prior := by
  unfold County.notePrior County.record
  split
  · next hn => exact absurd (Or.inl hn) h
  · next n hn => exact if_neg fun hc => h (Or.inr ⟨n, hn, hc⟩)

/-- A start count that is the newest, or taken as newer, passes the epoch check (R90). -/
theorem olderEpoch_eq_false {k : County} {i : Item}
    (h : ∀ n, (rollGet k.roll i.origin).newest = some n → i.start = n ∨ countTakenNewer i.start n = true) :
    olderEpoch k i = false := by
  unfold olderEpoch County.record
  split
  · rfl
  · next n hn => rcases h n hn with h | h <;> simp [h]

/-- A heard item of another origin past the epoch check: its start count taken, then the merge of its type. -/
theorem County.hearItem_of_current {c : Ctx} {k : County} {i : Item} (prior : Vector RollRecord 240)
    (hi : i.origin ≠ c.number) (h : olderEpoch k i = false) :
    k.hearItem c prior i =
      match i with
      | .fault f => (k.takeStart c i.origin i.start).hearFault c f
      | .compact n => (k.takeStart c i.origin i.start).hearCompact c n
      | .ack a => (k.takeStart c i.origin i.start).hearAck c a
      | .alive a => (k.takeStart c i.origin i.start).hearAlive c (k.notePrior i.origin i.start prior) a := by
  cases i <;> simp only [County.hearItem, hi, h] <;> rfl

/-- An item of an older start count is counted alone (R90). -/
theorem County.hearItem_of_older {c : Ctx} {k : County} {i : Item} (prior : Vector RollRecord 240)
    (hi : i.origin ≠ c.number) (h : olderEpoch k i = true) : k.hearItem c prior i = k.count .staleHeard := by
  simp only [County.hearItem, hi, h, if_true, if_false]

/-- An item of own origin goes to the own-stamp rules (R120, R121). -/
theorem County.hearItem_of_own {c : Ctx} {k : County} {i : Item} (prior : Vector RollRecord 240)
    (hi : i.origin = c.number) : k.hearItem c prior i = k.hearOwn c i := by
  simp only [County.hearItem, hi, if_true]

/-- Of another start count, only a newer one has an effect (R88, R121). -/
theorem County.hearOwn_of_not_newer {c : Ctx} {k : County} {i : Item} (hi : i.start ≠ k.ownStart)
    (h : countNewer i.start k.ownStart = false) : k.hearOwn c i = k := by
  simp [County.hearOwn, hi, h]

/-- The count after a newer one is taken as newer too (R121, R128). -/
theorem countTakenNewer_succ {a b : Half} (h : countNewer a b = true) : countTakenNewer (a + 1) b = true := by
  simp only [countNewer, countTakenNewer, decide_eq_true_eq] at h ⊢
  bv_omega

/-! ## The own record at a start (R111, R184) -/

@[simp] theorem State.takeImage_ownStart (s : State) : s.takeImage.ownStart = s.ownStart := rfl

@[simp] theorem State.takeImage_roll (s : State) : s.takeImage.roll = s.roll := rfl

@[simp] theorem State.runBlocks_ownStart (s : State) (count : Half) (levels : BitVec 8) :
    (s.runBlocks count levels).ownStart = count := rfl

/-- The own roll record takes the count that the own start count takes. -/
theorem State.runBlocks_ownRecord {s : State} (count : Half) (levels : BitVec 8) (h : 1 ≤ s.number ∧ s.number ≤ 240) :
    rollGet (s.runBlocks count levels).roll s.number = { newest := some count } := rollGet_rollSet_self _ _ h

end Sys2Proof.Machine
end

