-- ==== Sys2Proof/Tests/Slice0.lean ====
section
/-! SUPPORT. The model's own tests: commands that `wellFormed` refuses, values the manual works out, and for each statement
of Certificates/Slice0 that has hypotheses a state and operands that meet them (`witness_…`), clause by clause. -/

namespace Sys2Proof.Tests

open Sys2Proof Sys2Proof.Machine

set_option Elab.async false

/-! ## Well-formedness -/

theorem test_wellFormed_refuses_current : (Instr.lampSenseTick 0 2048).wellFormed = false ∧
    (Instr.lampSenseTick 0 2047).wellFormed = true := by decide
theorem test_wellFormed_refuses_count : (Instr.gateCompletion 0 65536).wellFormed = false ∧
    (Instr.gateCompletion 0 65535).wellFormed = true := by decide
theorem test_wellFormed_refuses_readTop : (Instr.readTop 0).wellFormed = false ∧ (Instr.readTop 5).wellFormed = false ∧
    (Instr.readTop 4).wellFormed = true := by decide
theorem test_wellFormed_refuses_readRoll : (Instr.readRoll 0).wellFormed = false ∧
    (Instr.readRoll 241).wellFormed = false ∧ (Instr.readRoll 240).wellFormed = true := by decide
theorem test_wellFormed_refuses_writeConfig : (Instr.writeConfig 0 []).wellFormed = false ∧
    (Instr.writeConfig 0 (List.replicate 17 0)).wellFormed = false ∧
    (Instr.writeConfig 0 (List.replicate 16 0)).wellFormed = true := by decide

/-! ## Values the manual works out -/

/-- Table 9.7, with the seed of station 12 at start count 7. -/
theorem test_lfsr_draws : lfsrSeed 12 7 = 0x0C07 ∧ lfsrStep 0x0C07 = 0x0603 ∧ lfsrDraw 0x0C07 = 0x60C0 ∧
    lfsrDraw 0x60C0 = 0xE60C := by decide

/-- Section 2.9. -/
theorem test_lamp_ratios : [412, 351, 350, 250, 61, 536, 1700].map (lampRatio · 412) =
    [1000, 851, 849, 606, 148, 1300, 4000] := by decide

/-- Table 3.5. -/
theorem test_loop_gates : loopDeviation 5006 5000 = 12 ∧ loopDeviation 4990 4999 = -18 ∧ loopDeviation 6000 4999 = 2002 ∧
    trackBaseline 320000 4990 = 319990 ∧ trackBaseline 319990 4990 = 319981 ∧ refCount 319981 = 4999 := by decide

/-- The rules of R88. -/
theorem test_stamp_order : Stamp.newer ⟨7, 4⟩ ⟨7, 65530⟩ = true ∧ Stamp.newer ⟨8, 1⟩ ⟨7, 900⟩ = true ∧
    Stamp.newer ⟨7, 32769⟩ ⟨7, 1⟩ = false ∧ Stamp.takenNewer ⟨7, 32769⟩ ⟨7, 1⟩ = true := by decide

/-- Table 11.8. -/
theorem test_read_roll_frames : (Request.readRoll 55).frame = [0xA5, 0x02, 0x0C, 0x37, 0xBB] ∧
    Reply.frame ⟨0x0C, .ok, rollBytes 55 ⟨some 21, 9165, 42, false⟩⟩ =
      [0x5A, 0x0D, 0x0C, 0x00, 0x37, 0x01, 0x15, 0x00, 0xCD, 0x23, 0x00, 0x00, 0x2A, 0x00, 0x00, 0x80] := by decide

/-- Table 8.1. -/
theorem test_charges : (Item.alive ⟨1, 1, 3⟩).charge = 12 ∧ (Item.ack ⟨1, 0, ⟨1, 1⟩, ⟨2, 3⟩, 3⟩).charge = 16 ∧
    ((List.range 7).map fun n => (Item.compact ⟨1, 1, .lampOut, 4, .active, 3,
      List.replicate (n + 2) ⟨0, 0, 0, 0⟩⟩).charge) = [24, 28, 32, 40, 44, 48, 52] := by decide

/-- Section 12.7: the start record of count 7. -/
theorem test_start_record : startRecord 7 = [0x07, 0x00, 0xF8, 0xFF] := by decide

/-! ## States for the witnesses -/

/-- A LAMP channel with demand input 0 and supply input 7. -/
def lampC : LampCfg := ⟨100, 300, 1300, 850, 150, 20, some 0, some 7⟩

/-- A LOOP channel. -/
def loopC : LoopCfg := ⟨5000, 500, 8, 1500, 150, 10, 24⟩

/-- Channel 0 LAMP, channel 1 LOOP, signs 1 and 3, inputs 0 DEMAND, 5 GENERAL, 6 DOOR, 7 MAINS. -/
def cfgT : Settings :=
  { Settings.listen with
    channels := tset (tset (.replicate 16 .off) 0 (.lamp lampC)) 1 (.loop loopC)
    signs := tset (tset (.replicate 8 ⟨false, 64⟩) 0 ⟨true, 64⟩) 2 ⟨true, 64⟩
    inputs := tset (tset (tset (tset (.replicate 8 ⟨.unused, false, true⟩) 0 ⟨.demand, true, true⟩) 5 ⟨.general, true, true⟩)
      6 ⟨.door, true, true⟩) 7 ⟨.mains, true, false⟩ }

/-- Station 20 in LOADING while its start record is written. -/
def starting : State := { State.reset with number := 20, cfg := cfgT, loader := ⟨some (.startWrite 7), none, none⟩ }

/-- Station 20 in RUN at station time 1000, demand ON, its access opened for the first ALIVE. -/
def run0 : State := { starting.enterRun 7 1#8 with clock := ⟨1000, 0⟩ }

/-- The same in LISTEN. -/
def listen0 : State := State.reset.listening .noMemory

/-- An entry of station 20, point 0. -/
def ownEntry (st : EntryState) (ack : Option Ack) : Entry :=
  { origin := 20, point := 0, kind := .lampOut, severity := 4, state := st, stamp := some ⟨7, 1⟩, occurrences := 1,
    ageBase := 0, baseTime := 900, lastHeard := 900, ack := ack, own := true }

/-- An entry of station 21, point 3. -/
def heardEntry (st : EntryState) (ack : Option Ack) : Entry :=
  { ownEntry st ack with origin := 21, point := 3, own := false }

/-- Point 0 in FAULT, and an entry of station 21. -/
def fault0 : State :=
  { run0 with
    nextChange := 2, filters := tset run0.filters 0 ⟨.fault .lampOut, 30, some .lampOut, 3, 1⟩,
    view := [ownEntry .active none, heardEntry .active none], attention := true,
    roll := rollSet run0.roll 21 ⟨some 7, 900, 1, false⟩ }

/-- A FAULT item of station 21, point 3. -/
def newsT (change : Half) (st : ItemState) (ack : Option Ack) : FaultNews :=
  { origin := 21, point := 3, stamp := ⟨7, change⟩, kind := .lampOut, severity := 4, state := st, occurrences := 1,
    age := 0, asOf := 1000, hop := 3, ack := ack }

/-- The FAULT item queued. -/
def queued (f : FaultNews) (p : Purpose) (sev seq : Nat) : QItem := ⟨.fault f, sev, p, 1, seq⟩

/-- No unsent mark stands in a fresh state. -/
theorem no_marks : ∀ p, tget (Vector.replicate 32 false) p false = false := by
  intro p
  unfold tget
  by_cases h : p < 32
  · simp [h]
  · simp [h]

/-! ## Witnesses: steps, resets, starts, memory -/

theorem witness_StepsNeverStop :
    listen0.mode ≠ .run ∧ (∀ l, run0.cfg.channel 1 ≠ .lamp l) ∧ (∀ l, run0.cfg.channel 0 ≠ .loop l) ∧
      listen0.slc.state ≠ .sending ∧ run0.slc.state ≠ .guarding ∧ listen0.trunk.access ≠ .defer ∧
      State.reset.live = false ∧ run0.mode ≠ .loading ∧ starting.loader.op ≠ some .imageRead ∧
      (∀ n, run0.loader.op ≠ some (.startWrite n)) ∧ (∀ w, run0.loader.op ≠ some (.configWrite w)) ∧
      run0.loader.op = none ∧ run0.pending = [] ∧ run0.mode = .run ∧ listen0.mode = .listen ∧
      State.reset.powerOn.mode = .held ∧ State.reset.pending = [] := by
  refine ⟨by decide, ?_, ?_, ?_⟩
  · intro l h; simp only [show run0.cfg.channel 1 = .loop loopC by decide +kernel] at h; cases h
  · intro l h; simp only [show run0.cfg.channel 0 = .lamp lampC by decide +kernel] at h; cases h
  have h : run0.loader.op = none := by decide +kernel
  refine ⟨by decide, by decide +kernel, by decide, by decide, by decide +kernel, by decide, ?_, ?_, by decide +kernel⟩
  · rw [h]; intro n hn; cases hn
  · rw [h]; intro n hn; cases hn

theorem witness_MemoryChangesAtWritesAlone :
    (∃ t, exec .cdActive State.reset = .next t) ∧ Memory.wf State.reset.mem = true ∧
      step State.reset = .next State.reset := ⟨⟨_, rfl⟩, rfl, rfl⟩

/-- A state that holds every invariant, with a step of it; point 0 is in FAULT and the queue holds an item. -/
theorem witness_invariants :
    ([State.viewOk, State.chargeOk, State.queueOk, State.attentionOk, State.stackOk, State.levelsOk, State.accessOk,
        State.slotOk, State.filtersOk, State.baselinesOk, State.ownersOk, State.ownEntriesOk, State.startsOk].all
          fun holds => holds fault0) = true ∧
      (fault0.trunk.blind = true → fault0.trunk.rx = none) ∧ step fault0 = .next fault0.idle := by
  refine ⟨by decide +kernel, by decide +kernel, ?_⟩
  have h : fault0.pending = [] := by decide +kernel
  simp only [step, h]

/-- A configuration write and a start-record write in progress. -/
def writing (op : MemOp) (start : Option Half) (config : Option ConfigWrite) : State :=
  { listen0 with loader := ⟨some op, start, config⟩ }

theorem witness_ResetsClearTheBlocks :
    State.reset.loader.op = some .imageRead ∧ (writing (.startWrite 7) none none).loader.op = some (.startWrite 7) ∧
      Memory.wf listen0.mem = true ∧ (writing (.configWrite ⟨12, [120]⟩) none none).loader.op = some (.configWrite ⟨12, [120]⟩) ∧
      State.reset.powerOn.mode = .held ∧ listen0.mode ≠ .held ∧
      (let s := { listen0 with restart := .replyEnded }; s.restart ≠ .none ∧ ∀ n, s.loader.op ≠ some (.startWrite n)) ∧
      (let s := { writing (.startWrite 7) none none with restart := .replyEnded }
       s.restart ≠ .none ∧ ∃ n, s.loader.op = some (.startWrite n)) ∧ listen0.restart = .none := by
  refine ⟨by decide, by decide, by decide, by decide, by decide, by decide, ⟨by decide, ?_⟩, ⟨by decide, 7, by decide⟩,
    by decide⟩
  intro n h; cases h

theorem witness_ImageReadDecidesTheStart :
    State.reset.mode = .loading ∧ State.reset.loader.op = some .imageRead ∧
      Memory.readBytes State.reset.mem 0 3 ≠ [0x4D, 0x46, 0x01] := by decide +kernel

/-- An image with the signature, a station number and a CRC; what it does not list reads FFh. -/
def imageT (station : Byte) (sum : Half) : Memory :=
  Memory.writeBytes (Memory.writeBytes [] 0 [0x4D, 0x46, 0x01, station]) 502 (halfBytes sum)

theorem imageT_read (station : Byte) (sum : Half) (x : Nat) : Memory.read (imageT station sum) x =
    if 502 ≤ x ∧ x < 504 then ((halfBytes sum)[x - 502]?).getD 0
    else if x < 4 then (([0x4D, 0x46, 0x01, station] : List Byte)[x]?).getD 0 else 0xFF := by
  have h := Memory.wf_writeBytes [0x4D, 0x46, 0x01, station] 0 (m := []) rfl
  rw [imageT, Memory.read_writeBytes _ _ _ h (by simp [halfBytes, memorySize]),
    Memory.read_writeBytes _ _ _ rfl (by simp [memorySize])]
  show (if 502 ≤ x ∧ x < 504 then _ else if 0 ≤ x ∧ x < 4 then _ else _) = _
  simp only [Nat.zero_le, true_and, Nat.sub_zero]
  rfl

/-- Whatever CRC is written, the signature, the station number and the bytes under the CRC stand; so an image passes with
its own CRC and fails with any other. -/
theorem witness_ImageReadDecidesTheStart_image (station : Byte) (sum : Half) :
    Memory.readBytes (imageT station sum) 0 3 = [0x4D, 0x46, 0x01] ∧ Memory.read (imageT station sum) 3 = station ∧
      Memory.half (imageT station sum) 502 = sum ∧
      Memory.readBytes (imageT station sum) 0 502 = Memory.readBytes (imageT station 0) 0 502 := by
  refine ⟨?_, ?_, ?_, ?_⟩
  · simp [Memory.readBytes, imageT_read, List.range_succ]
  · simp [imageT_read]
  · simp [Memory.half, imageT_read, halfBytes, halfOf_halfBytes]
  · unfold Memory.readBytes
    refine List.map_congr_left fun x hx => ?_
    have hx : x < 502 := List.mem_range.1 hx
    simp [imageT_read, show ¬ (502 ≤ x) by omega]

theorem witness_StartWriteEntersRun :
    starting.mode = .loading ∧ starting.loader.op = some (.startWrite 7) ∧ 1 ≤ starting.number ∧ starting.number ≤ 240 ∧
      1 ≤ starting.cfg.condenseOn ∧ starting.cfg.channel 0 = .lamp lampC ∧ starting.cfg.channel 1 = .loop loopC ∧
      nextSign starting.cfg 0 = some 1 ∧ nextSign Settings.listen 0 = none ∧ lampC.demand = some 0 := by decide +kernel

/-- The own start count and the own roll record take the new count together, as the start-record write ends (R111). -/
theorem test_own_record_takes_start :
    (starting.ownStart, (rollGet starting.roll 20).newest) = (0, none) ∧
      (let t := starting.startWriteEnds 7 false 1#8
       (t.ownStart, (rollGet t.roll 20).newest) = (7, some 7)) := by decide +kernel

theorem witness_MemoryWriteEnds :
    Memory.wf listen0.mem = true ∧ (writing (.startWrite 7) none none).mode ≠ .loading ∧
      (writing (.startWrite 7) (some 8) (some ⟨12, [120]⟩)).loader = ⟨some (.startWrite 7), some 8, some ⟨12, [120]⟩⟩ ∧
      (let w : ConfigWrite := ⟨496, List.replicate 8 0⟩
       (writing (.configWrite w) (some 8) none).loader.op = some (.configWrite w) ∧ w.offset + w.bytes.length = 504) := by
  decide

/-! ## Witnesses: samples -/

/-- The RUN state with a lamp record on channel 0. -/
def lampState (r : LampRecord) : State := run0.setChannel 0 (.lamp r)

/-- A lit record, and the records at the boundaries of the clauses. -/
def litR : LampRecord := { demand := true, tw := some 700, reference := 100 }

theorem lamp_not_lost (r : LampRecord) :
    ¬ ∃ n k, lampC.supply = some n ∧ ((lampState r).filter (24 + n)).declared = .fault k := by
  rintro ⟨n, k, h1, h2⟩
  have hn : 7 = n := by simpa [lampC] using h1
  subst hn
  have h : (run0.filter 31).declared = .normal := by decide +kernel
  simp [lampState, State.setChannel, State.filter] at h h2
  rw [h] at h2
  cases h2

theorem witness_LampTickClassifies (r : LampRecord) :
    (lampState r).mode = .run ∧ (lampState r).cfg.channel 0 = .lamp lampC ∧ (lampState r).now = 1000 := by
  have h : run0.mode = .run ∧ run0.cfg.channel 0 = .lamp lampC ∧ run0.now = 1000 := by decide +kernel
  exact h

theorem witness_LampTickClassifies_record (r : LampRecord) : (lampState r).channel 0 = .lamp r := by
  simp [lampState, State.setChannel, State.channel, tget, tset]

theorem witness_LampTickClassifies_clauses :
    (let s := { lampState litR with filters := tset run0.filters 31 ⟨.fault .mainsLost, 8, none, 0, 1⟩ }
     lampC.supply = some 7 ∧ (s.filter (24 + 7)).declared = .fault .mainsLost) ∧
    litR.demand = true ∧ since 1000 701 < lampC.warmUp ∧ ¬ since 1000 700 < lampC.warmUp ∧ 0 < litR.reference ∧
    (let f : LampRecord := { litR with reference := 0, learnFailed := true }; f.reference = 0 ∧ f.learnFailed = true) ∧
    (let c : LampRecord := { litR with reference := 0, learnCount := 14, learnSum := 70 }; c.learnCount + 1 ≠ 16) ∧
    (let c : LampRecord := { litR with reference := 0, learnCount := 15, learnSum := 75 }
     c.learnCount + 1 = 16 ∧ 5 ≤ (c.learnSum + 5) / 16 ∧ (c.learnSum + 4) / 16 < 5) ∧
    since 1000 991 < 10 ∧ ¬ since 1000 990 < 10 := by decide +kernel

theorem witness_DayTestUsesThresholdAlone :
    (let r : LampRecord := { demand := false, tc := some 990 }
     r.demand = false ∧ ¬ ∃ t, r.tc = some t ∧ since (lampState r).now t < 10) ∧
    lampC.dayThreshold ≤ min 2047 20 ∧ min 2047 19 < lampC.dayThreshold := by
  refine ⟨⟨rfl, ?_⟩, by decide, by decide⟩
  rintro ⟨t, h, hl⟩
  cases h
  revert hl
  decide +kernel

theorem witness_InputsAreSampled :
    run0.mode = .run ∧ (run0.cfg.inputAt 0).role = .demand ∧ (run0.cfg.inputAt 1).role = .unused ∧
      ((run0.cfg.inputAt 7).role, Kind.mainsLost) ∈ [(Role.mains, Kind.mainsLost), (.door, .doorOpen), (.general, .inputActive)] ∧
      ((run0.cfg.inputAt 6).role, Kind.doorOpen) ∈ [(Role.mains, Kind.mainsLost), (.door, .doorOpen), (.general, .inputActive)] ∧
      ((run0.cfg.inputAt 5).role, Kind.inputActive) ∈ [(Role.mains, Kind.mainsLost), (.door, .doorOpen), (.general, .inputActive)] ∧
      run0.cfg.channel 0 = .lamp lampC ∧ lampC.demand = some 0 ∧
      (let t := run0.sampleInputs 0#8
       let u := t.sampleInputs 0#8
       (t.input 0).filtered = (run0.input 0).filtered ∧ (u.input 0).filtered ≠ (t.input 0).filtered) := by decide +kernel

/-- The RUN state with a loop record on channel 1. -/
def loopState (r : LoopRecord) : State := run0.setChannel 1 (.loop r)

theorem witness_GateClassifies :
    run0.mode = .run ∧ run0.cfg.channel 1 = .loop loopC ∧
      (let r : LoopRecord := { nominal := 5000 }
       (loopState r).channel 1 = .loop r ∧ r.occStart = none ∧ r.capture = none ∧ r.nominal ≠ 0 ∧
         min 65535 499 < loopC.openFloor ∧ loopC.openFloor ≤ min 65535 500) ∧
      (let r : LoopRecord := { nominal := 5000, capture := some ⟨320000, 900⟩, occStart := some 400 }
       (loopState r).channel 1 = .loop r ∧ r.capture = some ⟨320000, 900⟩ ∧ r.occStart ≠ none) := by decide +kernel

theorem witness_SampleWithoutDeclaration :
    ((listen0.filter 0).declared = .unused) ∧
    (let s := run0
     let c := s.cfg.paramsOf 0
     (s.filter 0).declared = .normal ∧ min 63 ((s.filter 0).p + c.up) < c.on ∧
       (let t := s.setFilter 0 ⟨.normal, 28, some .lampOut, 15, 0⟩
        min 63 ((t.filter 0).p + c.up) < c.on ∧ (t.filter 0).declared = .normal)) ∧
    (let s := fault0
     let c := s.cfg.paramsOf 0
     (s.filter 0).declared = .fault .lampOut ∧ c.off < (s.filter 0).p - c.down ∧
       (s.filter 0).l ≠ some .lampPartial ∧ 1 < c.confirm) := by decide +kernel

theorem witness_OnsetDeclaresFault :
    let s := run0.setFilter 0 ⟨.normal, 29, some .lampOut, 15, 255⟩
    (s.filter 0).declared = .normal ∧ (s.cfg.paramsOf 0).on ≤ min 63 ((s.filter 0).p + (s.cfg.paramsOf 0).up) ∧
      s.roomFor 0 = true ∧ s.stampFree = true := by decide +kernel

theorem witness_KindChangeAndClear :
    (let s := fault0.setFilter 0 ⟨.fault .lampOut, 30, some .lampPartial, 2, 1⟩
     (s.filter 0).declared = .fault .lampOut ∧ findEntry s.view s.number 0 = some (ownEntry .active none) ∧
       s.stampFree = true ∧ Kind.lampPartial ≠ Kind.lampOut ∧ (s.cfg.paramsOf 0).confirm ≤ (s.filter 0).r + 1) ∧
    (let s := fault0.setFilter 0 ⟨.fault .lampOut, 11, none, 0, 1⟩
     (s.filter 0).declared = .fault .lampOut ∧
       (s.filter 0).p - (s.cfg.paramsOf 0).down ≤ (s.cfg.paramsOf 0).off) := by decide +kernel

theorem witness_InhibitAnswersInOrder :
    listen0.ready = true ∧ listen0.mode = .listen ∧ run0.ready = true ∧ run0.mode = .run ∧
      (run0.filter 2).declared = .unused ∧ (run0.filter 0).declared = .normal ∧ run0.roomFor 0 = true ∧
      run0.stampFree = true ∧ findEntry run0.view run0.number 0 = none ∧ fault0.ready = true ∧
      (fault0.filter 0).declared = .fault .lampOut ∧ fault0.roomFor 0 = true ∧ fault0.stampFree = true := by decide +kernel

/-- Point 0 INHIBITED. -/
def inhibited0 : State :=
  { fault0 with filters := tset run0.filters 0 ⟨.inhibited, 30, some .lampOut, 3, 1⟩, view := [ownEntry .inhibited none] }

theorem witness_ReleaseAnswersInOrder :
    let r : LampRecord := { demand := true, tw := some 0, reference := 100 }
    inhibited0.ready = true ∧ inhibited0.mode = .run ∧ (inhibited0.filter 0).declared = .inhibited ∧
      findEntry inhibited0.view inhibited0.number 0 = some (ownEntry .inhibited none) ∧ inhibited0.stampFree = true ∧
      inhibited0.channel 0 = .lamp r ∧ r.demand = true ∧ (inhibited0.filter 31).declared = .normal := by decide +kernel

/-! ## Witnesses: the sign line -/

/-- The RUN state with the controller in a state, on sign 1. -/
def slcState (st : SlcState) (b : List SignChar) : State := { run0 with slc := ⟨st, some ⟨0, 0⟩, false, some 1, b, none, none⟩ }

theorem witness_SignRequestCharacters :
    (slcState .sending []).slc.state = .sending ∧ (slcState .sending []).slc.current = some 1 := by decide +kernel

theorem witness_PollCycleGoesByAddress :
    (∀ st, (slcState st []).slc.state = st ∧ (slcState st []).slc.current = some 1) ∧
      (run0.cfg.signAt 1).present = true ∧ (run0.cfg.signAt 3).present = true ∧
      (∀ d, d < 9 → (run0.cfg.signAt d).present = true → 1 ≤ d → d = 1 ∨ d = 3) := by
  refine ⟨fun st => ⟨rfl, rfl⟩, by decide +kernel, by decide +kernel, by decide +kernel⟩

/-- Six characters of a reply of sign 1 with `pixels` failures in the low byte and its check. -/
def replyT (flags pixels check : Byte) : List SignChar :=
  [⟨1, false, false⟩, ⟨flags, false, false⟩, ⟨0, false, false⟩, ⟨pixels, false, false⟩, ⟨5, false, false⟩, ⟨check, false, false⟩]

theorem witness_TransactionOutcomeOrder :
    transactionOutcome 1 (replyT 0 64 186) = .good ∧ transactionOutcome 1 [] = .noReply ∧
      transactionOutcome 1 ((replyT 0 64 186).take 5) = .garbled .short ∧
      transactionOutcome 1 (⟨1, true, true⟩ :: (replyT 0 64 186).drop 1) = .garbled .framing ∧
      transactionOutcome 1 (⟨1, true, false⟩ :: (replyT 0 64 186).drop 1) = .garbled .marker ∧
      transactionOutcome 2 (replyT 0 64 186) = .garbled .address ∧
      transactionOutcome 1 (replyT 0 64 187) = .garbled .check := by decide

theorem witness_TransactionEnds :
    run0.slc.state ≠ .awaiting ∧
    (let s := slcState .awaiting ((replyT 0 64 186).take 4)
     s.slc.state = .awaiting ∧ (s.slc.buffer ++ [(⟨5, false, false⟩ : SignChar)]).length < 6 ∧ s.slc.current = some 1) ∧
    (let s := slcState .awaiting ((replyT 0 64 186).take 5)
     6 ≤ (s.slc.buffer ++ [(⟨186, false, false⟩ : SignChar)]).length ∧
       transactionOutcome 1 (s.slc.buffer ++ [(⟨186, false, false⟩ : SignChar)]) = .good) := by decide +kernel

theorem witness_SignStopAndStart :
    (∀ st, (slcState st []).ready = true ∧ (slcState st []).slc.state = st) ∧
      (listen0.ready = true ∧ listen0.slc.state = .stopped ∧ ∀ a, 1 ≤ a → a ≤ 8 → (listen0.cfg.signAt a).present ≠ true) := by
  refine ⟨fun st => ⟨?_, rfl⟩, by decide, by decide, fun a h1 h8 => ?_⟩
  · have h : run0.ready = true := by decide +kernel
    exact h
  · have h : ∀ a, a < 9 → (listen0.cfg.signAt a).present ≠ true := by decide
    exact h a (by omega)

/-! ## Witnesses: the county channel -/

theorem witness_TrunkCharacterTaken :
    State.reset.live = false ∧
    (let s : State := { run0 with trunk := { run0.trunk with cd := true, rx := none } }
     s.live = true ∧ s.trunk.blind = false ∧ s.trunk.rx = none ∧ s.trunk.cd = true) ∧
    (let cs : List Byte := [20, 0, 0]
     cs.length + 1 ≠ 4 + 2) ∧
    (let body : List Byte := [20, 7, 0, 0]
     let sent := halfBytes (crc (4 :: body))
     (body ++ sent).length = 4 + 2 ∧ parseBulletin 0 body = some ⟨20, 7, []⟩ ∧ parseBulletin 0 [0, 7, 0, 0] = none) := by
  decide +kernel

theorem witness_CarrierFreezesAndClears :
    (∀ cd, cd = true → let s : State := { run0 with trunk := { run0.trunk with cd := cd, slot := none } }
      s.attentionOk = true ∧ s.slotOk = true ∧ s.trunk.cd = true ∧ s.trunk.access = .defer) ∧
    (let s : State := { run0 with trunk := { run0.trunk with cd := true, access := .idle, slot := none } }
     s.attentionOk = true ∧ s.slotOk = true ∧ s.trunk.enable = .enabled ∧ s.queue ≠ [] ∧
       ({ s with queue := [] } : State).attentionOk = true) ∧
    (run0.attentionOk = true ∧ run0.slotOk = true ∧ run0.trunk.cd = false) := by
  refine ⟨?_, by decide +kernel, by decide +kernel⟩
  rintro cd rfl
  decide +kernel

theorem witness_EventEndOpensAccess :
    (let s : State := { run0 with trunk := { run0.trunk with access := .idle, slot := none } }
     s.trunk.access = .idle ∧ s.trunk.enable = .enabled ∧ s.trunk.cd = false ∧ s.trunk.rx = none ∧
       s.queue = [⟨.alive ⟨20, 7, 3⟩, 1, .own, 0, 0⟩]) ∧
    run0.trunk.access = .defer ∧ listen0.trunk.access = .off := by decide +kernel

theorem witness_SlotKeyUpSend :
    (let s : State := { run0 with trunk := { run0.trunk with count := 2 } }
     s.trunk.access = .defer ∧ s.trunk.slot.isSome = true ∧ 1 < s.trunk.count) ∧
    (let s : State := { run0 with trunk := { run0.trunk with count := 1 } }
     s.trunk.count ≤ 1 ∧ s.queue ≠ [] ∧ (∀ x ∈ s.queue, x.seq < s.nextSeq ∧ x.item.size ≤ 48) ∧ s.attentionOk = true ∧
       ∀ p, tget s.unsent p false = false) ∧
    (∀ a, ({ run0 with trunk := { run0.trunk with access := a, enable := .draining } } : State).trunk.enable = .draining) := by
  refine ⟨by decide +kernel, ⟨by decide +kernel, by decide +kernel, by decide +kernel, by decide +kernel, ?_⟩, fun _ => rfl⟩
  have h : run0.unsent = .replicate 32 false := by decide +kernel
  intro p
  show tget run0.unsent p false = false
  rw [h]
  exact no_marks p

/-- One item of each type, at the ends of its ranges. -/
def itemsT : List Item :=
  [.fault { newsT 65535 .active (some ⟨240, 255⟩) with affected := some 16, occurrences := 255, hop := 7, severity := 7 },
   .ack ⟨1, 0, ⟨0, 0⟩, ⟨1, 0⟩, 0⟩, .alive ⟨240, 65535, 7⟩,
   .compact ⟨21, 7, .doorOpen, 1, .inhibited, 0, (List.range 8).map fun n => ⟨n, 9, 65535, 1000⟩⟩]

theorem witness_BulletinParsesBack : itemsT.length ≤ 12 ∧ (∀ i ∈ itemsT, i.sendable = true) ∧
    (itemsT.map (·.size)).sum ≤ 236 := by decide

/-- The bytes of a FAULT item: origin, point, kind, severity and hop, state, what follows the age. -/
def faultBytes (o p k sh st : Byte) (tail : List Byte) : List Byte :=
  [0x01, o, p, 7, 0, 9, 0, k, sh, st, 1, 0, 0] ++ tail

/-- The bytes of a COMPACT item with points of change 9. -/
def compactBytes (n : Byte) (points : List Byte) : List Byte :=
  [0x03, 21, 7, 0, 1, 0x1C, 1, n] ++ points.flatMap fun p => [p, 9, 0, 0, 0]

/-- Each condition of R151 just outside its range, beside the item just inside it. -/
theorem witness_BulletinParsesBack_malformed :
    (∀ bs ∈ [faultBytes 240 31 17 0x3F 3 [], faultBytes 1 0 1 1 13 [1, 0, 16], faultBytes 1 0 1 1 9 [16],
        [0x02, 240, 31, 7, 0, 9, 0, 240, 0, 7], compactBytes 2 [30, 31], compactBytes 8 [0, 1, 2, 3, 4, 5, 6, 7],
        [0x04, 240, 254, 7, 0, 7, 1]], (parseItem 0 bs).isSome = true) ∧
      (∀ bs ∈ [[], [0x00], [0x05], faultBytes 0 0 1 1 1 [], faultBytes 241 0 1 1 1 [], faultBytes 1 32 1 1 1 [],
        faultBytes 1 0 0 1 1 [], faultBytes 1 0 18 1 1 [], faultBytes 1 0 1 8 1 [], faultBytes 1 0 1 1 4 [1, 0],
        faultBytes 1 0 1 1 5 [0, 0], faultBytes 1 0 1 1 5 [241, 0], faultBytes 1 0 1 1 13 [1, 0, 17],
        faultBytes 1 0 1 1 9 [17], faultBytes 1 0 1 1 5 [1], [0x02, 1, 32, 7, 0, 9, 0, 1, 0, 0],
        [0x02, 1, 0, 7, 0, 9, 0, 241, 0, 0], [0x02, 1, 0, 7, 0, 9, 0, 1, 0, 8], compactBytes 1 [0],
        compactBytes 9 [0, 1, 2, 3, 4, 5, 6, 7, 8], compactBytes 2 [0, 32], compactBytes 2 [5, 5],
        [0x04, 1, 253, 7, 0, 0, 1], [0x04, 1, 254, 7, 0, 8, 1], [0x04, 1, 254, 7, 0, 0, 2]], parseItem 0 bs = none) := by
  decide

/-- A bulletin's header at its bounds, a byte too many, an item too few, a bad item behind a good one. -/
theorem witness_BulletinParsesBack_header :
    let good := itemBytes 0 (.alive ⟨21, 7, 3⟩)
    (Item.alive ⟨21, 7, 3⟩).sendable = true ∧ (parseBulletin 0 ([240, 7, 0, 1] ++ good)).isSome = true ∧
      (∀ bs ∈ [[0, 7, 0, 0], [241, 7, 0, 0], 1 :: 7 :: 0 :: 13 :: (List.replicate 13 good).flatten, [1, 7, 0],
        [240, 7, 0, 1] ++ (good ++ [0]), [240, 7, 0, 2] ++ (good ++ []), [240, 7, 0, 2] ++ (good ++ [0x05])],
          parseBulletin 0 bs = none) := by decide

theorem witness_BulletinSentIsBulletinHeard :
    let s : State := { run0 with trunk := { run0.trunk with cd := true, rx := none } }
    s.live = true ∧ s.trunk.blind = false ∧ s.trunk.cd = true ∧ s.trunk.rx = none := by decide +kernel

theorem witness_TrunkEnableDisableFlush :
    (∀ e a, ({ run0 with trunk := { run0.trunk with enable := e, access := a } } : State).ready = true ∧
      ({ run0 with trunk := { run0.trunk with enable := e, access := a } } : State).attentionOk = true) ∧
    (listen0.ready = true ∧ listen0.attentionOk = true ∧ listen0.mode = .listen ∧ listen0.trunk.enable = .disabled) := by
  refine ⟨fun e a => ?_, by decide⟩
  have h : run0.ready = true ∧ run0.attentionOk = true := by decide +kernel
  exact h

/-! ## Witnesses: queue, view, roll -/

/-- A queue that leaves condensed mode as an own ALIVE takes the place of an older one, and its free charge after it. -/
theorem witness_TrunkEnableDisableFlush_pass :
    let relays := (List.range 25).map fun i => queued { newsT 9 .active none with origin := 22 + i, point := 0 } .relay 4 i
    let y : QItem := ⟨.alive ⟨20, 6, 3⟩, 1, .own, 0, 25⟩
    let x : QItem := ⟨.alive ⟨20, 7, 3⟩, 1, .own, 0, 0⟩
    let q : QueueSide := { queue := relays ++ y :: [], nextSeq := 26, condensed := true }
    run0.ctx.mode = .run ∧ queueKeysOnce q.queue = true ∧ Stamp.takenNewer ⟨7, 0⟩ ⟨6, 0⟩ = true ∧
      totalCharge (relays ++ []) ≤ 64 * run0.ctx.cfg.condenseOff ∧ run0.ctx.cfg.condenseOff < run0.ctx.cfg.condenseOn ∧
      totalCharge (enqueue (relays ++ []) { x with seq := q.nextSeq }) ≤ 2048 ∧
      (offerTested run0.ctx run0.roll [] x q).2 = true := by decide +kernel

/-- The resync pass: the mark of the own entry that has one is cleared and its news queued. -/
theorem test_resync_pass :
    let q : QueueSide := { unsent := tset (.replicate 32 false) 0 true }
    let t := resyncPass fault0.ctx fault0.roll fault0.view q
    tget t.unsent 0 false = false ∧
      (t.queue.map fun x => (x.item.origin, x.item.points, x.purpose)) = [(20, [0], .resync)] := by
  decide +kernel

/-- A queue with `n` relayed FAULTs of station 22 of severity 1. -/
def loadT (n : Nat) : QueueSide :=
  { nextSeq := n, queue := (List.range n).map fun i => queued { newsT 9 .active none with origin := 22 + i, point := 0, severity := 1 } .relay 1 i }

theorem witness_OfferJoinsEvictsOrDrops :
    let x := queued (newsT 9 .active none) .relay 4 0
    run0.ctx.mode = .run ∧ olderThanRoll run0.ctx run0.roll x.item = false ∧
      (∀ p ∈ x.item.points, covering (loadT 102).queue x.item.origin p = none) ∧
      (loadT 102).condensed = false ∧ queueOrdered (loadT 102).queue = true ∧
      totalCharge (loadT 102).queue + x.item.charge = 2060 ∧
      totalCharge (loadT 101).queue + x.item.charge ≤ 2048 ∧
      totalCharge ((loadT 102).queue.filter fun z => z.severity < x.severity) = 2040 ∧
      totalCharge ((loadT 102).queue.filter fun z => z.severity < 1) = 0 := by decide +kernel

theorem witness_OfferMeetsQueuedFault :
    let y := queued (newsT 9 .active none) .relay 4 0
    let q : QueueSide := { queue := [y], nextSeq := 1 }
    queueKeysOnce q.queue = true ∧ q.queue = [] ++ y :: [] ∧ y.item = .fault (newsT 9 .active none) ∧
      olderThanRoll run0.ctx run0.roll y.item = false ∧
      ((newsT 8 .active none).stamp.takenNewer (newsT 9 .active none).stamp = false) ∧
      ((newsT 10 .active none).stamp.takenNewer (newsT 9 .active none).stamp = true) ∧
      totalCharge (enqueue [] y) ≤ 2048 := by decide +kernel

/-- A queued COMPACT of station 21 with these points at change 9. -/
def compactT (points : List Nat) : CompactNews := ⟨21, 7, .lampOut, 4, .active, 3, points.map fun p => ⟨p, 9, 0, 1000⟩⟩

/-- A FAULT and an ACK that meet one point of a COMPACT of three, of two and of one, and where the split has no room. -/
theorem witness_OfferMeetsQueuedFault_compact :
    let x := queued (newsT 10 .active none) .relay 4 0
    let k : AckNews := ⟨21, 3, ⟨7, 9⟩, ⟨22, 5⟩, 3⟩
    let full : QueueSide :=
      { queue := (loadT 101).queue.map (fun z => { z with severity := 5 }) ++
          [⟨.compact (compactT [3, 4]), 4, .relay, 1, 200⟩] }
    (∀ points ∈ [[3], [3, 4], [3, 4, 5]],
      let y : QItem := ⟨.compact (compactT points), 4, .relay, 1, 0⟩
      queueKeysOnce [y] = true ∧ y.stampFor 21 3 = some ⟨7, 9⟩ ∧ (newsT 10 .active none).stamp.takenNewer ⟨7, 9⟩ = true ∧
        olderThanRoll run0.ctx run0.roll x.item = false ∧ y.stampFor k.origin k.point = some k.stamp ∧
        (compactT points).points.find? (·.point == k.point) = some ⟨3, 9, 0, 1000⟩) ∧
      (offerCore run0.ctx run0.roll [] { x with item := .ack k } full).queue = full.queue ∧
      (offerCore run0.ctx run0.roll [] { x with item := .ack k, severity := 6 } full).queue ≠ full.queue ∧
      2048 < totalCharge (splitForAck [] k full.queue) := by decide +kernel

/-- A COMPACT offer of which all, two or one of the points are queued at their stamps. -/
theorem witness_OfferMeetsQueuedFault_offer :
    let x : QItem := ⟨.compact (compactT [3, 4, 5]), 4, .refresh, 0, 0⟩
    let q := fun points : List Nat =>
      ({ queue := points.map fun p => queued { newsT 9 .active none with point := p } .relay 4 p } : QueueSide)
    [[3, 4, 5], [3, 4], [3]].map (fun points => (perKeyCheck [] (q points).queue x).map fun y => y.item.points) =
      [none, some [5], some [4, 5]] := by decide +kernel

/-- R129: an acknowledgement splits its point out of a queued COMPACT, directly behind it. -/
theorem test_ack_splits_compact :
    ((splitForAck [] ⟨21, 3, ⟨7, 9⟩, ⟨22, 5⟩, 3⟩ [⟨.compact (compactT [3, 4, 5]), 4, .relay, 1, 0⟩]).map
        fun x => x.item.points) =
      [[4, 5], [3]] := by decide

/-- Station 20's queue with a target of a merge behind a relay. -/
def ownNews (point : Nat) (change : Half) : FaultNews := { newsT change .active none with origin := 20, point := point }

theorem witness_CondensedModeRefusesAndMerges :
    let a := queued (newsT 9 .active none) .relay 4 0
    let t := queued (ownNews 2 1) .refresh 4 1
    let q : QueueSide := { queue := [a, t], nextSeq := 2, condensed := true }
    run0.ctx.mode = .run ∧ q.condensed = true ∧ olderThanRoll run0.ctx run0.roll (.fault (ownNews 3 2)) = false ∧
      covering q.queue 20 3 = none ∧ mergeTarget run0.ctx (ownNews 3 2) a = false ∧ (ownNews 3 2).origin = run0.ctx.number ∧
      64 * run0.ctx.cfg.condenseOn = 1536 ∧ 64 * run0.ctx.cfg.condenseOff = 512 ∧ 2 < run0.ctx.cfg.condenseFloor ∧
      totalCharge [a, { t with item := .compact ⟨20, 7, .lampOut, 4, .active, 3, [⟨2, 1, 0, 1000⟩, ⟨3, 2, 0, 1000⟩]⟩ }] ≤ 2048 := by
  decide +kernel

/-- A replacement that passes the leaving threshold on its way and ends above it leaves condensed mode (R132). -/
theorem test_removal_leaves_condensed :
    let q : QueueSide :=
      { loadT 25 with queue := (loadT 25).queue ++ [queued (newsT 9 .active none) .relay 1 25], condensed := true }
    let x := queued (newsT 10 .active none) .own 1 0
    (totalCharge q.queue, run0.ctx.cfg.condenseOff * 64) = (520, 512) ∧
      (offerTested run0.ctx run0.roll [] x q).2 = true ∧ (offerCore run0.ctx run0.roll [] x q).condensed = false := by
  decide +kernel

theorem witness_NoticesAndCorrections :
    let x := queued (newsT 9 .active none) .relay 4 0
    queueKeysOnce [x] = true ∧ x.stampFor 21 3 = some ⟨7, 9⟩ ∧ x.purpose = .relay ∧ x.heard < run0.ctx.cfg.suppression ∧
      run0.ctx.cfg.suppression ≤ ({ x with heard := 2 } : QItem).heard ∧
      findEntry fault0.view 21 3 = some (heardEntry .active none) ∧ findEntry fault0.view 21 4 = none ∧
      (heardEntry .active none).lastSent = none ∧ covering fault0.queue 21 3 = none ∧
      since 1000 940 = run0.ctx.cfg.holdoff := by decide +kernel

theorem witness_MergeFaultByStamp :
    (∀ ack, (heardEntry .cleared ack).stamp = some ⟨7, 1⟩) ∧
      findEntry fault0.view (newsT 1 .active none).origin (newsT 1 .active none).point = some (heardEntry .active none) ∧
      findEntry run0.view 21 3 = none ∧ run0.view.length < 384 ∧
      (newsT 1 .active none).stamp = ⟨7, 1⟩ ∧ (newsT 2 .active none).stamp.takenNewer ⟨7, 1⟩ = true ∧
      (newsT 0 .active none).stamp.takenNewer ⟨7, 1⟩ = false := by
  refine ⟨fun _ => rfl, ?_⟩
  decide +kernel

theorem witness_MergeAckAndCompactPoint :
    findEntry fault0.view 21 3 = some (heardEntry .active none) ∧ findEntry run0.view 21 3 = none ∧
      viewOrdered fault0.view = true ∧ (heardEntry .active (some ⟨22, 5⟩)).ack ≠ none ∧
      (newsT 2 .active none).ack = none ∧ (newsT 2 .active none).affected = none := by decide +kernel

/-- A full view: 384 entries in key order of the same severity and state. -/
def fullT (st : EntryState) : List Entry :=
  (List.range 384).map fun i => { heardEntry st none with origin := 22 + i / 32, point := i % 32, severity := 3 }

theorem witness_FullViewEvictsOrRefuses :
    (fullT .retired).length = 384 ∧ viewOrdered (fullT .active) = true ∧ findEntry (fullT .active) 21 3 = none ∧
      ((fullT .active).filter fun x => x.state == .retired) = [] ∧
      ((fullT .active).filter fun x => decide (x.severity < 4)) ≠ [] ∧
      ((fullT .active).filter fun x => decide (x.severity < 3)) = [] := by decide +kernel

theorem witness_MinuteScanRemovesAndMarks :
    fault0.live = true ∧ fault0.viewOk = true ∧
      (let e := { heardEntry .retired none with retireTime := some (fault0.now) }
       e.state = .retired ∧ (fault0.now - fault0.now).toInt ≤ 0 ∧ e.own = false) ∧
      180 * run0.cfg.refresh ≤ since 5400 0 ∧ ¬ 180 * run0.cfg.refresh ≤ since 5399 0 := by decide +kernel

theorem witness_SilenceCheckDeclares :
    fault0.live = true ∧ viewOrdered fault0.view = true ∧ fault0.view.length ≤ 144 ∧
      (rollGet fault0.roll 21).newest ≠ none ∧ 21 ≠ fault0.number ∧ (rollGet fault0.roll 21).silent = false ∧
      0 < fault0.cfg.silence ∧ 60 * fault0.cfg.silence ≤ since 4500 (rollGet fault0.roll 21).lastHeard := by decide +kernel

theorem witness_EpochAdvanceClosesAndPurges :
    (∀ p, tget fault0.unsent p false = false) ∧ findEntry fault0.view 21 3 = some (heardEntry .active none) ∧
      (let d := ((8 : Half) - 7).toNat; 1 ≤ d ∧ d ≤ 32768) ∧ ((32775 : Half) - 7).toNat = 32768 := by
  refine ⟨?_, by decide +kernel⟩
  have h : fault0.unsent = .replicate 32 false := by decide +kernel
  rw [h]
  exact no_marks

/-- Station 21 silent, its STATION_SILENT entry ACTIVE with or without an ack part. -/
def silent0 (ack : Option Ack) : State :=
  { fault0 with
    roll := rollSet fault0.roll 21 ⟨some 7, 100, 1, true⟩,
    view := [ownEntry .active none, heardEntry .active none,
      { heardEntry .active ack with point := 255, kind := .stationSilent, stamp := none, localOnly := true }] }

/-- What an item heard by a state of these leaves: the queue's items, and the counts of stale heard items. -/
def heardBy (s : State) (i : Item) : List (Item × Nat) × Half :=
  let k := s.toCounty.hearItem s.ctx s.roll i
  ((k.queue.filter fun x => x.item.origin != 20).map fun x => (x.item, x.severity), (k.toQueueSide.counter .staleHeard).value)

theorem witness_HeardNewsHandedOn_evidence :
    (∀ ack ∈ [none, some ⟨22, 5⟩], (rollGet (silent0 ack).roll 21).silent = true ∧
      findEntry (silent0 ack).view 21 255 =
        some { heardEntry .active ack with point := 255, kind := .stationSilent, stamp := none, localOnly := true }) ∧
      (rollGet fault0.roll 21).silent = false ∧ findEntry fault0.view 21 255 = none := by decide +kernel

theorem witness_HeardNewsHandedOn :
    (newsT 2 .active none).origin ≠ fault0.ctx.number ∧ (rollGet fault0.roll 21).newest = some 7 ∧
      (rollGet fault0.roll 22).newest = none ∧ countTakenNewer 8 7 = true ∧ countTakenNewer 6 7 = false ∧
      (∀ (out : MergeOutcome) (i : Item), (out, i) ∈ [(MergeOutcome.ackApplied, Item.ack ⟨21, 3, ⟨7, 1⟩, ⟨22, 5⟩, 3⟩),
        (.outdated, .ack ⟨21, 3, ⟨7, 0⟩, ⟨22, 5⟩, 3⟩), (.unplaced, .ack ⟨21, 4, ⟨7, 0⟩, ⟨22, 5⟩, 3⟩)] →
        ∀ a, i = .ack a → (mergeAckItem fault0.ctx a fault0.toViewSide).2 = out) ∧
      (mergeAckItem fault0.ctx ⟨21, 3, ⟨7, 1⟩, ⟨22, 5⟩, 3⟩
        { fault0.toViewSide with view := [heardEntry .active (some ⟨22, 5⟩)] }).2 = .duplicate := by
  refine ⟨by decide +kernel, by decide +kernel, by decide +kernel, by decide, by decide, ?_, by decide +kernel⟩
  intro out i h a ha
  subst ha
  simp only [List.mem_cons, List.not_mem_nil, or_false, Prod.mk.injEq, Item.ack.injEq] at h
  rcases h with ⟨rfl, rfl⟩ | ⟨rfl, rfl⟩ | ⟨rfl, rfl⟩ <;> decide +kernel

/-- A FAULT goes on with a hop less; a hop budget of 0 relays nothing; a COMPACT is relayed with its new points, one alone as a
FAULT; an older start count is counted alone. -/
theorem test_heard_items_go_on :
    heardBy fault0 (.fault (newsT 2 .active none)) = ([(.fault { newsT 2 .active none with hop := 2 }, 4)], 0) ∧
      heardBy fault0 (.fault { newsT 2 .active none with hop := 0 }) = ([], 0) ∧
      heardBy fault0 (.compact (compactT [3, 4])) = ([(.compact { compactT [3, 4] with hop := 2 }, 4)], 0) ∧
      ((heardBy { fault0 with view := [] } (.compact { compactT [4] with state := .cleared })).1.map fun x => x.1.points) =
        [[4]] ∧
      heardBy fault0 (.compact { compactT [3] with points := [⟨3, 1, 0, 1000⟩] }) = ([], 0) ∧
      heardBy fault0 (.alive ⟨21, 6, 3⟩) = ([], 1) ∧ heardBy fault0 (.alive ⟨21, 8, 3⟩) = ([(.alive ⟨21, 8, 2⟩, 1)], 0) := by
  decide +kernel

/-- An ALIVE is a RENEWAL from half the presence interval on, a DUPLICATE before it, and NEW once its bulletin has moved the
newest start count away and back (R118). -/
theorem test_alive_outcomes :
    let heard := fun (s : State) (items : List Item) =>
      ((s.toCounty.hearBulletin s.ctx 21 7 items).queue.filter fun x => x.item.origin == 21).map (·.item)
    let at_ := fun seconds : Time => { fault0 with roll := rollSet fault0.roll 21 ⟨some 7, fault0.now - seconds, 1, false⟩ }
    let half : Time := 30 * BitVec.ofNat 32 fault0.cfg.presence
    heard (at_ half) [.alive ⟨21, 7, 3⟩] = [.alive ⟨21, 7, 2⟩] ∧ heard (at_ (half - 1)) [.alive ⟨21, 7, 3⟩] = [] ∧
      heard (at_ 0) [.alive ⟨21, 32775, 0⟩, .alive ⟨21, 7, 3⟩] = [.alive ⟨21, 7, 2⟩] := by decide +kernel

theorem witness_OwnStampsStayNewest :
    (ownNews 3 9).origin = run0.ctx.number ∧ (ownNews 3 9).stamp.start = run0.ownStart ∧
      countNewer 1 (run0.nextChange - 1) = true ∧ countNewer 0 (run0.nextChange - 1) = false ∧
      countNewer 32774 run0.ownStart = true ∧ ((32774 : Half) - run0.ownStart).toNat = 32767 ∧
      countNewer 8 run0.ownStart = true ∧ countNewer 6 run0.ownStart = false ∧ run0.loader.op = none ∧
      (run0.nextChange - run0.baseChange).toNat ≤ 32767 ∧ 32767 < (((32769 : Half)) - run0.baseChange).toNat := by
  decide +kernel

/-- A sender unknown, at the newest count, a newer one and an older one; and the items of own origin at a newer change number
under the own start count. -/
theorem witness_OwnStampsStayNewest_heard :
    (rollGet fault0.roll 22).newest = none ∧ (rollGet fault0.roll 21).newest = some 7 ∧ countTakenNewer 8 7 = true ∧
      countTakenNewer 6 7 = false ∧ (rollGet (fault0.toCounty.takeStart fault0.ctx 22 9).roll 22).newest = some 9 ∧
      (∀ i ∈ [Item.fault (ownNews 3 9), .compact ⟨20, 7, .lampOut, 4, .active, 3, [⟨3, 8, 0, 0⟩, ⟨4, 9, 0, 0⟩]⟩,
        .ack ⟨20, 3, ⟨7, 9⟩, ⟨22, 5⟩, 3⟩],
        i.origin = run0.ctx.number ∧ i.start = run0.ownStart ∧ (run0.toCounty.hearItem run0.ctx run0.roll i).nextChange = 10 ∧
          (run0.toCounty.hearItem run0.ctx run0.roll i).stampConflict = true) := by decide +kernel

/-- An own-origin start count 32767 ahead begins the recovery, which queues the own news anew; one exactly 32768 off, neither
newer nor older (R88), changes nothing. -/
theorem test_own_start_at_the_tie :
    let hear := fun start : Half => fault0.toCounty.hearItem fault0.ctx fault0.roll (.alive ⟨20, start, 3⟩)
    countNewer 32775 fault0.ownStart = false ∧ countNewer fault0.ownStart 32775 = false ∧ hear 32775 = fault0.toCounty ∧
      (hear 32774).ownStart = 32775 ∧ (hear 32774).stampConflict = true ∧
      ((hear 32774).queue.map fun x => (x.item.points, x.item.start)) = [([0], 32775), ([254], 32775)] := by decide +kernel

/-! ## Witnesses: console -/

theorem witness_AcknowledgeAnswersInOrder :
    listen0.ready = true ∧ listen0.mode = .listen ∧ fault0.ready = true ∧ fault0.mode = .run ∧
      findEntry fault0.view 21 4 = none ∧ findEntry fault0.view 21 3 = some (heardEntry .active none) ∧
      (heardEntry .active none).stamp = some ⟨7, 1⟩ ∧ (heardEntry .active none).ack = none ∧
      (heardEntry .active none).localOnly = false ∧ (heardEntry .active (some ⟨22, 5⟩)).ack ≠ none := by decide +kernel

theorem witness_TakeFinishSetLevel :
    run0.ready = true ∧ run0.stack = [] ∧
      ((dispatchOrder run0.now run0.view).find? fun e =>
        decide (run0.level < e.severity ∧ (e.state = .active ∧ e.ack = none ∨ e.state = .cleared))) = none ∧
      ((dispatchOrder fault0.now fault0.view).find? fun e =>
        decide (fault0.level < e.severity ∧ (e.state = .active ∧ e.ack = none ∨ e.state = .cleared))) =
          some (ownEntry .active none) ∧
      viewOrdered fault0.view = true ∧ fault0.stack.length < 4 ∧
      (let s := { fault0 with stack := [3, 2, 1, 0], level := 3 }; s.ready = true ∧ 4 ≤ s.stack.length) := by decide +kernel

theorem witness_StatusAndCountersReport : run0.ready = true ∧ listen0.ready = true ∧ fault0.ready = true := by decide +kernel

/-- Records at the edges of the live values: nothing measured, everything present. -/
theorem witness_ReadsReport_points :
    (let r : LampRecord := { demand := true, tw := some 0, reference := 100 }
     fault0.cfg.channel 0 = .lamp lampC ∧ fault0.channel 0 = .lamp r) ∧
      (let r : LoopRecord := { nominal := 5000 }
       fault0.cfg.channel 1 = .loop loopC ∧ fault0.channel 1 = .loop r) ∧
      (fault0.filter 1).declared ≠ .unused ∧ (fault0.filter 16).declared ≠ .unused ∧ (fault0.filter 31).declared ≠ .unused ∧
      (let s := fault0.setChannel 1 (.loop { nominal := 5000, capture := some ⟨320000, 5⟩, latestDeviation := some (-18) })
       s.pointBytes 1 = [1, 2, 1, 0, 0, 0, 0, 0, 0, 6, 100, 0, 0, 5, 0, 0, 0, 0x00, 0xE2, 0x04, 0x00, 0x88, 0x13, 0x88, 0x13, 0,
         0xEE, 0xFF, 0, 0, 0, 0, 0, 0, 0, 0, 0, 0, 0, 0]) := by decide +kernel

theorem witness_ReadsReport :
    fault0.ready = true ∧ fault0.view = [ownEntry .active none] ++ heardEntry .active none :: [] ∧
      (20 < (heardEntry .active none).origin) ∧ findEntry fault0.view 20 0 = some (ownEntry .active none) ∧
      findEntry fault0.view 20 1 = none ∧ (fault0.filter 2).declared = .unused ∧ (fault0.filter 0).declared ≠ .unused ∧
      fault0.cfg.family 0 = some .lamp ∧ fault0.cfg.family 1 = some .loop ∧ fault0.cfg.family 16 = some .sign ∧
      fault0.cfg.family 31 = some .input ∧ (rollGet fault0.roll 240).newest = none ∧
      (rollGet fault0.roll 21).newest = some 7 := by decide +kernel

theorem witness_WriteConfigAndRestart :
    run0.ready = true ∧ run0.loader.op = none ∧ (writing (.startWrite 7) none none).ready = true ∧
      (writing (.startWrite 7) none none).loader.op ≠ none ∧ ((496 : Half).toNat + 8 = 504) ∧ (503 : Half).toNat + 2 = 505 ∧
      (480 : Half).toNat / 16 = ((480 : Half).toNat + 16 - 1) / 16 ∧
      (489 : Half).toNat / 16 ≠ ((489 : Half).toNat + 8 - 1) / 16 ∧
      (let s := { run0.replied 0x14 .ok [] with restart := .answered }
       s.cp.port = .replying ∧ s.cp.reply ≠ none ∧ s.restart = .answered) := by decide +kernel

/-- The LISTEN state with the port assembling. -/
def assemblingT (b : List Byte) : State := { listen0 with cp := ⟨.assembling, b, some ⟨0, 0⟩, none⟩ }

theorem witness_ConsoleByteTaken :
    State.reset.live = false ∧ listen0.live = true ∧ listen0.cp.port = .hunting ∧
      (listen0.replied 0 .ok []).cp.port = .replying ∧ (assemblingT []).live = true ∧
      (assemblingT [2]).cp.buffer = 2 :: [] ∧ (assemblingT [1, 1]).cp.buffer = 1 :: 1 :: [] ∧
      byteSum (1 :: [1] ++ [0xFE]) = 0 ∧ byteSum (1 :: [1] ++ [0xFF]) ≠ 0 ∧ byteSum (1 :: [0x15] ++ [0xEA]) = 0 ∧
      0x14 < (0x15 : Byte).toNat := by decide

/-- A known code with a parameter too many, one too few, and WRITE CONFIG at both ends of its range. -/
theorem witness_ConsoleByteTaken_lengths :
    (assemblingT [2, 0x01, 0]).cp.buffer = 2 :: 0x01 :: [0] ∧ byteSum (2 :: [0x01, 0] ++ [0xFD]) = 0 ∧
      (assemblingT [1, 0x02]).cp.buffer = 1 :: 0x02 :: [] ∧ byteSum (1 :: [0x02] ++ [0xFD]) = 0 ∧
      (let bytes := 3 :: 0x13 :: [0, 0]
       (assemblingT bytes).cp.buffer = bytes ∧ byteSum (bytes ++ [0xEA]) = 0) ∧
      (let bytes := 20 :: 0x13 :: List.replicate 19 0
       (assemblingT bytes).cp.buffer = bytes ∧ byteSum (bytes ++ [0xD9]) = 0) := by decide

theorem witness_RequestFrameIsItsCommand :
    listen0.ready = true ∧ (Request.readTop 4).inRange = true ∧ (Request.writeConfig 0 (List.replicate 16 0)).inRange = true ∧
      (listen0.replied 0 .ok []).live = true ∧ (listen0.replied 0 .ok []).cp.port = .replying ∧ State.reset.live = false := by
  decide

/-- An image whose channel 0 is LAMP with input 1 as its demand and input 0 as its supply, and whose channel 1 is LOOP. -/
def channelsImage : Memory :=
  Memory.writeBytes (Memory.writeBytes (Memory.writeBytes (Memory.writeBytes State.reset.mem 58 [1]) 71 [1, 0]) 74 [2])
    342 [2, 0, 0, 1]

theorem witness_ClampedSettingsInRange :
    (match (settingsOf channelsImage).channel 0 with
      | .lamp l => (l.demand.isSome, l.supply.isSome)
      | _ => (false, false)) = (true, true) ∧
    (match (settingsOf channelsImage).channel 1 with
      | .loop _ => true
      | _ => false) = true := by decide +kernel

theorem witness_StampOrderIsSerial :
    Stamp.newer ⟨32767, 0⟩ ⟨0, 9⟩ = true ∧ Stamp.newer ⟨7, 32767⟩ ⟨7, 0⟩ = true ∧
      (⟨32768, 3⟩ : Stamp) ≠ ⟨0, 3⟩ ∧ Stamp.newer ⟨32768, 3⟩ ⟨0, 3⟩ = false ∧ Stamp.newer ⟨0, 3⟩ ⟨32768, 3⟩ = false := by
  decide

theorem witness_DispatchOrderRanksEntries :
    viewOrdered fault0.view = true ∧ (dispatchOrder fault0.now fault0.view).length = 2 := by decide +kernel

theorem witness_PresenceAndRefreshOffer :
    run0.mode = .run ∧ 0 < run0.cfg.refresh ∧
      (let s : State := { run0 with cfg := { run0.cfg with refresh := 0 } }
       s.mode = .run ∧ s.cfg.refresh = 0) := by decide +kernel

end Sys2Proof.Tests
end

/-! The day test of a lamp channel (R36): the conditions of the sense tick's rows as propositions, the sense tick of a LAMP
channel in RUN as one equation, and the demand-off row of the classification. -/

namespace Sys2Proof.Machine

/-- Supply lost (R29): the supply point exists and its declared state is FAULT. -/
theorem State.supplyLost_iff (s : State) (cfg : LampCfg) :
    s.supplyLost cfg = true ↔ ∃ n k, cfg.supply = some n ∧ (s.filter (24 + n)).declared = .fault k := by
  cases hsup : cfg.supply with
  | none => simp [State.supplyLost, hsup]
  | some n => cases hd : (s.filter (24 + n)).declared <;> simp [State.supplyLost, hsup, inputPoint, hd]

/-- The cool-down window (R28) of a channel with demand OFF. -/
theorem LampRecord.cooling_iff_of_demand_off {r : LampRecord} (now : Time) (hoff : r.demand = false) :
    r.cooling now = true ↔ ∃ t, r.tc = some t ∧ since now t < 10 := by
  cases htc : r.tc with
  | none => simp [LampRecord.cooling, htc]
  | some t => simp [LampRecord.cooling, hoff, htc]

/-- LAMP_SENSE_TICK on a LAMP channel in RUN: the record and the filter take what `LampRecord.tick` gives (R23, R34). -/
theorem exec_lampSenseTick_of_lamp {s : State} {c : Fin 16} {cfg : LampCfg} {r : LampRecord} (current : Nat)
    (hrun : s.mode = .run) (hcfg : s.cfg.channel c = .lamp cfg) (hrec : s.channel c = .lamp r) :
    exec (.lampSenseTick c current) s =
      .next (State.settle ((s.setChannel c (.lamp
        (r.tick cfg (s.supplyLost cfg) (min 2047 current) s.now).1)).applySample c
          (r.tick cfg (s.supplyLost cfg) (min 2047 current) s.now).2)) := by
  simp [exec, execLampSenseTick, State.lampTick, measuredCurrent, hrun, hcfg, hrec]

/-- The class the day test gives a current (R36): a function of the day threshold alone. -/
def dayClass (cfg : LampCfg) (i : Nat) : SampleClass :=
  if cfg.dayThreshold ≤ i then .abnormal .dayBurning else .normal

theorem dayClass_of_threshold_le {cfg : LampCfg} {i : Nat} (h : cfg.dayThreshold ≤ i) :
    dayClass cfg i = .abnormal .dayBurning := if_pos h

theorem dayClass_of_lt_threshold {cfg : LampCfg} {i : Nat} (h : i < cfg.dayThreshold) : dayClass cfg i = .normal :=
  if_neg (Nat.not_le.mpr h)

/-- The last two rows of Table 2.3: a counted demand-off sample takes the class of the day test and no ratio, and the record
keeps its windows, its reference and its learning. -/
theorem LampRecord.tick_of_counted_demand_off {r : LampRecord} (cfg : LampCfg) (i : Nat) {now : Time}
    (hoff : r.demand = false) (hcool : r.cooling now = false) :
    r.tick cfg false i now =
      ({ r with latestCurrent := some i, latestClass := some (dayClass cfg i), latestRatio := none }, dayClass cfg i) := by
  by_cases hday : cfg.dayThreshold ≤ i <;> simp [LampRecord.tick, dayClass, hoff, hcool, hday]

/-- Settles O11: the tick is the demand-off row of the classification, whose class is that of the day test. -/
theorem dayTestUsesThresholdAlone : Obligations.DayTestUsesThresholdAlone := by
  intro s c current cfg r hrun hcfg hrec hsupply hoff hwindow
  have hlost : s.supplyLost cfg = false := Bool.eq_false_iff.mpr (mt (s.supplyLost_iff cfg).mp hsupply)
  have hcool : r.cooling s.now = false :=
    Bool.eq_false_iff.mpr (mt (LampRecord.cooling_iff_of_demand_off s.now hoff).mp hwindow)
  have hexec := exec_lampSenseTick_of_lamp current hrun hcfg hrec
  rw [hlost, LampRecord.tick_of_counted_demand_off cfg _ hoff hcool] at hexec
  constructor
  · intro hday
    rwa [dayClass_of_threshold_le hday] at hexec
  · intro hday
    rwa [dayClass_of_lt_threshold hday] at hexec

end Sys2Proof.Machine

/-! The sign request (R57, R60, R65): what the controller sends in SENDING, and the sum its check character makes. -/

namespace Sys2Proof.Machine

/-- The SLC drives the line in SENDING and in no other state (R57). -/
theorem Slc.driving_iff (c : Slc) : c.driving = true ↔ c.state = .sending := by simp [Slc.driving]

/-- In SENDING the line carries the request to the current sign (R65). -/
theorem Slc.line_of_sending {c : Slc} {a : Nat} (hsending : c.state = .sending) (hcurrent : c.current = some a) :
    c.line = signRequest a := by
  simp [Slc.line, c.driving_iff.mpr hsending, hcurrent]

/-- Address, 53h and check character add up to a multiple of 256 (R60). -/
theorem signCheck_completes_sum (a : Nat) : (a + 83 + signCheck a) % 256 = 0 := by
  unfold signCheck
  omega

/-- Settles O22: the line in SENDING is `signRequest` of the current sign, whose check character completes the sum. -/
theorem signRequestCharacters : Obligations.SignRequestCharacters := by
  constructor
  · intro s a hsending hcurrent _ _
    exact ⟨Slc.line_of_sending hsending hcurrent, signCheck_completes_sum a⟩
  · show signRequest 3 = [(true, 3), (false, 0x53), (false, 0xAA)]
    decide

end Sys2Proof.Machine

/-! What an event can do to the Bulletin Queue, said once: it loses items, a queued item's notices are counted, or an offer is
handled. Whatever these three keep, every operation of the queue keeps. -/

namespace Sys2Proof.Machine

/-- One change of the queue: items leave it, heard counts change, or one offer is handled. -/
inductive QueueMove : QueueSide → QueueSide → Prop
  | loses {q r : QueueSide} (h : r.queue.Sublist q.queue) : QueueMove q r
  | recounts {q r : QueueSide} (g : QItem → QItem) (hg : ∀ x, (g x).item = x.item ∧ (g x).severity = x.severity)
      (h : r.queue = q.queue.map g) : QueueMove q r
  | offer {q : QueueSide} (c : Ctx) (roll : Vector RollRecord 240) (view : List Entry) (x : QItem) :
      QueueMove q (offerCore c roll view x q)

/-- Any number of changes of the queue. -/
abbrev QueueMoves : QueueSide → QueueSide → Prop := Relation.ReflTransGen QueueMove

variable {c : Ctx} {roll : Vector RollRecord 240} {view : List Entry} {q r : QueueSide}

theorem QueueMoves.of_sublist (h : r.queue.Sublist q.queue) : QueueMoves q r := .single (.loses h)

theorem QueueMoves.of_queue_eq (h : r.queue = q.queue) : QueueMoves q r :=
  .of_sublist (h ▸ List.Sublist.refl _)

theorem QueueMoves.of_offerCore (x : QItem) : QueueMoves q (offerCore c roll view x q) := .single (.offer c roll view x)

/-- A fold of steps that each move the queue moves it. -/
theorem QueueMoves.foldl {α : Type} {f : QueueSide → α → QueueSide} {l : List α}
    (h : ∀ x q, QueueMoves q (f q x)) (q : QueueSide) : QueueMoves q (l.foldl f q) := by
  induction l generalizing q with
  | nil => exact .refl
  | cons x l ih => exact (h x q).trans (ih (f q x))

theorem resyncPass_moves (q : QueueSide) : QueueMoves q (resyncPass c roll view q) := by
  refine QueueMoves.foldl (fun e q => ?_) q
  have hcleared : QueueMoves q { q with unsent := tset q.unsent e.point false } := .of_queue_eq rfl
  exact hcleared.trans (QueueMoves.of_offerCore _)

/-- What follows a removal moves the queue that the removal left. -/
theorem afterChange_moves (before after : QueueSide) :
    QueueMoves after (afterChange c roll view before after) := by
  have htest : QueueMoves after (testCondensed c after) := .of_queue_eq (testCondensed_queue c after)
  simp only [afterChange]
  split
  · exact htest.trans (resyncPass_moves _)
  · exact htest

theorem afterChange_moves_of_sublist {after : QueueSide} (h : after.queue.Sublist q.queue) :
    QueueMoves q (afterChange c roll view q after) :=
  (QueueMoves.of_sublist h).trans (afterChange_moves q after)

theorem offerItem_moves (x : QItem) (q : QueueSide) : QueueMoves q (offerItem c roll view x q) := by
  have hcore : QueueMoves q (offerTested c roll view x q).1 := .of_offerCore x
  simp only [offerItem]
  split
  · exact hcore.trans (resyncPass_moves _)
  · exact hcore

theorem duplicateNotice_moves (o p : Nat) (st : Stamp) (earlier : List (Nat × Stamp)) (q : QueueSide) :
    QueueMoves q (duplicateNotice c roll view o p st earlier q) := by
  unfold duplicateNotice
  split
  · exact .refl
  · split
    · split
      · exact afterChange_moves_of_sublist (by simp)
      · refine .single (.recounts (fun y => if (y.stampFor o p).isSome then { y with heard := y.heard + 1 } else y) ?_ rfl)
        intro y
        split <;> exact ⟨rfl, rfl⟩
    · exact .refl

theorem flushQueue_moves (q : QueueSide) : QueueMoves q (flushQueue c roll view q) :=
  (QueueMoves.of_sublist (by simp)).trans (resyncPass_moves _)

end Sys2Proof.Machine

/-! What one offer makes of the list of queued items (R126 to R134): the list it ends in, by the way the offer was placed; and
that the list stays in order of severity with no key covered twice (R125, R128). -/

namespace Sys2Proof.Machine

/-! ## Origin and points by the type of an item -/

@[simp] theorem Item.origin_fault (f : FaultNews) : (Item.fault f).origin = f.origin := rfl
@[simp] theorem Item.origin_ack (a : AckNews) : (Item.ack a).origin = a.origin := rfl
@[simp] theorem Item.origin_compact (n : CompactNews) : (Item.compact n).origin = n.origin := rfl
@[simp] theorem Item.origin_alive (a : AliveNews) : (Item.alive a).origin = a.origin := rfl
@[simp] theorem Item.points_fault (f : FaultNews) : (Item.fault f).points = [f.point] := rfl
@[simp] theorem Item.points_ack (a : AckNews) : (Item.ack a).points = [a.point] := rfl
@[simp] theorem Item.points_compact (n : CompactNews) : (Item.compact n).points = n.points.map (·.point) := rfl
@[simp] theorem Item.points_alive (a : AliveNews) : (Item.alive a).points = [presencePoint] := rfl

/-! ## The order of the queue as one relation -/

/-- A key covered by both items. -/
def QItem.Overlaps (x y : QItem) : Prop := x.item.origin = y.item.origin ∧ ∃ p ∈ x.item.points, p ∈ y.item.points

/-- `x` may stand before `y`: not of lower severity, and no key covered by both (R125, R128). -/
def QItem.Precedes (x y : QItem) : Prop := y.severity ≤ x.severity ∧ ¬ x.Overlaps y

theorem queueOrdered_iff (q : List QItem) :
    queueOrdered q = true ↔ q.Pairwise fun x y => y.severity ≤ x.severity := by
  induction q with
  | nil => simp [queueOrdered]
  | cons a q ih =>
    cases q with
    | nil => simp [queueOrdered]
    | cons b q =>
      simp only [queueOrdered, Bool.and_eq_true, decide_eq_true_eq, ih]
      constructor
      · rintro ⟨hab, hq⟩
        refine List.pairwise_cons.mpr ⟨fun z hz => ?_, hq⟩
        rcases List.mem_cons.mp hz with rfl | hz
        · exact hab
        · exact (List.rel_of_pairwise_cons hq hz).trans hab
      · intro h
        exact ⟨List.rel_of_pairwise_cons h List.mem_cons_self, h.of_cons⟩

theorem queueKeysOnce_iff (q : List QItem) : queueKeysOnce q = true ↔ q.Pairwise fun x y => ¬ x.Overlaps y := by
  induction q with
  | nil => simp [queueKeysOnce]
  | cons x q ih =>
    simp only [queueKeysOnce, Bool.and_eq_true, ih, List.pairwise_cons, and_congr_left_iff]
    intro _
    simp only [List.all_eq_true, Bool.or_eq_true, bne_iff_ne, Bool.not_eq_true', List.contains_eq_mem,
      decide_eq_false_iff_not, QItem.Overlaps, not_and, not_exists]
    refine forall₂_congr fun y _ => ?_
    constructor
    · rintro (hne | hp) heq
      · exact absurd heq.symm hne
      · exact hp
    · intro h
      by_cases heq : x.item.origin = y.item.origin
      · exact .inr (h heq)
      · exact .inl fun h' => heq h'.symm

/-- The queue invariant of R125 and R128 is one pairwise relation. -/
theorem queueOk_iff (s : State) : s.queueOk = true ↔ s.queue.Pairwise QItem.Precedes := by
  simp only [State.queueOk, Bool.and_eq_true, queueOrdered_iff, queueKeysOnce_iff]
  exact List.pairwise_and_iff.symm

/-! ## Items that keep less -/

/-- `y` is `x` with at most some of its keys taken away. -/
structure QItem.Shrinks (y x : QItem) : Prop where
  origin : y.item.origin = x.item.origin
  severity : y.severity = x.severity
  points : y.item.points ⊆ x.item.points

theorem QItem.Shrinks.refl (x : QItem) : x.Shrinks x := ⟨rfl, rfl, List.Subset.refl _⟩

theorem QItem.Precedes.shrink {x y x' y' : QItem} (h : x.Precedes y) (hx : x'.Shrinks x) (hy : y'.Shrinks y) :
    x'.Precedes y' := by
  obtain ⟨hsev, hkeys⟩ := h
  refine ⟨by rw [hx.severity, hy.severity]; exact hsev, ?_⟩
  rintro ⟨horigin, p, hpx, hpy⟩
  exact hkeys ⟨by rw [← hx.origin, ← hy.origin]; exact horigin, p, hx.points hpx, hy.points hpy⟩

/-- The item covers the key. -/
def QItem.Covers (x : QItem) (o p : Nat) : Prop := x.item.origin = o ∧ p ∈ x.item.points

theorem Item.stampAt_isSome_iff (i : Item) (p : Nat) : (i.stampAt p).isSome = true ↔ p ∈ i.points := by
  cases i with
  | fault f => simpa [Item.stampAt] using eq_comm
  | ack a => simpa [Item.stampAt] using eq_comm
  | compact c => simp [Item.stampAt]
  | alive a => simp [Item.stampAt]

theorem QItem.stampFor_isSome_iff (x : QItem) (o p : Nat) : (x.stampFor o p).isSome = true ↔ x.Covers o p := by
  by_cases h : x.item.origin = o <;> simp [QItem.stampFor, QItem.Covers, h, Item.stampAt_isSome_iff]

theorem compactOf_keeps {view : List Entry} {n : CompactNews} {i : Item} (h : compactOf view n = some i) :
    i.origin = n.origin ∧ i.points = n.points.map (·.point) := by
  unfold compactOf at h
  split at h
  · cases h
  · rename_i x hx
    cases h
    simp [compactFault, hx]
  · cases h
    exact ⟨rfl, rfl⟩

theorem withoutKey_shrinks {view : List Entry} {p : Nat} {x y : QItem} (h : withoutKey view p x = some y) :
    y.Shrinks x ∧ p ∉ y.item.points := by
  unfold withoutKey at h
  split at h
  · rename_i n hn
    obtain ⟨i, hi, rfl⟩ := Option.map_eq_some_iff.mp h
    obtain ⟨horigin, hpoints⟩ := compactOf_keeps hi
    refine ⟨⟨by simp [hn, horigin], rfl, ?_⟩, ?_⟩
    · intro z hz
      simp only [hpoints, List.mem_map, List.mem_filter, hn, Item.points_compact] at hz ⊢
      obtain ⟨w, ⟨hw, -⟩, rfl⟩ := hz
      exact ⟨w, hw, rfl⟩
    · simp [hpoints]
  all_goals cases h

theorem mem_replaceKey {view : List Entry} {o p : Nat} {q : List QItem} {y : QItem} (h : y ∈ replaceKey view o p q) :
    (∃ x ∈ q, y.Shrinks x) ∧ ¬ y.Covers o p := by
  obtain ⟨x, hx, hy⟩ := List.mem_filterMap.mp h
  split at hy
  · obtain ⟨hshrinks, hp⟩ := withoutKey_shrinks hy
    exact ⟨⟨x, hx, hshrinks⟩, fun hc => hp hc.2⟩
  · rename_i hcov
    cases hy
    exact ⟨⟨y, hx, .refl y⟩, fun hc => hcov ((y.stampFor_isSome_iff o p).mpr hc)⟩

theorem pairwise_replaceKey {view : List Entry} {o p : Nat} {q : List QItem} (h : q.Pairwise QItem.Precedes) :
    (replaceKey view o p q).Pairwise QItem.Precedes := by
  have hstep : ∀ x y, (if (x.stampFor o p).isSome then withoutKey view p x else some x) = some y → y.Shrinks x := by
    intro x y hy
    split at hy
    · exact (withoutKey_shrinks hy).1
    · cases hy
      exact .refl x
  exact List.Pairwise.filterMap _ (fun a a' haa b hb b' hb' => haa.shrink (hstep a b hb) (hstep a' b' hb')) h

theorem QItem.Shrinks.trans {x y z : QItem} (h : x.Shrinks y) (h' : y.Shrinks z) : x.Shrinks z :=
  ⟨h.origin.trans h'.origin, h.severity.trans h'.severity, fun _ hp => h'.points (h.points hp)⟩

theorem QItem.Shrinks.covers {x y : QItem} (h : y.Shrinks x) {o p : Nat} (hc : y.Covers o p) : x.Covers o p :=
  ⟨h.origin ▸ hc.1, h.points hc.2⟩

/-- Taking several keys from a queue in turn (R128): what stands shrinks what stood and covers none of them. -/
theorem replaceKeys_spec {view : List Entry} {o : Nat} : ∀ (ps : List Nat) (q : List QItem),
    (q.Pairwise QItem.Precedes → (ps.foldl (fun l p => replaceKey view o p l) q).Pairwise QItem.Precedes) ∧
    ∀ y ∈ ps.foldl (fun l p => replaceKey view o p l) q, (∃ x ∈ q, y.Shrinks x) ∧ ∀ p ∈ ps, ¬ y.Covers o p
  | [], q => ⟨id, fun y hy => ⟨⟨y, hy, .refl y⟩, by simp⟩⟩
  | p :: ps, q => by
    obtain ⟨hpair, hmem⟩ := replaceKeys_spec ps (replaceKey view o p q)
    refine ⟨fun h => hpair (pairwise_replaceKey h), fun y hy => ?_⟩
    obtain ⟨⟨x, hx, hyx⟩, hps⟩ := hmem y hy
    obtain ⟨⟨z, hz, hxz⟩, hp⟩ := mem_replaceKey hx
    refine ⟨⟨z, hz, hyx.trans hxz⟩, fun p' hp' => ?_⟩
    rcases List.mem_cons.mp hp' with rfl | hp'
    · exact fun hc => hp (hyx.covers hc)
    · exact hps p' hp'

/-! ## An item that joins -/

theorem mem_enqueue {x y : QItem} {q : List QItem} : y ∈ enqueue q x ↔ y = x ∨ y ∈ q := by
  induction q with
  | nil => simp [enqueue]
  | cons z q ih =>
    by_cases h : x.severity ≤ z.severity
    · simp [enqueue, h, ih, or_left_comm]
    · simp [enqueue, h]

theorem pairwise_enqueue {x : QItem} {q : List QItem} (hq : q.Pairwise QItem.Precedes)
    (hx : ∀ y ∈ q, ¬ x.Overlaps y) : (enqueue q x).Pairwise QItem.Precedes := by
  have hsymm : ∀ y : QItem, ¬ x.Overlaps y → ¬ y.Overlaps x :=
    fun y h ⟨ho, p, hp, hp'⟩ => h ⟨ho.symm, p, hp', hp⟩
  induction q with
  | nil => simp [enqueue]
  | cons z q ih =>
    obtain ⟨hz, hq'⟩ := List.pairwise_cons.mp hq
    by_cases h : x.severity ≤ z.severity
    · simp only [enqueue, h, if_true]
      refine List.pairwise_cons.mpr ⟨fun y hy => ?_, ih hq' fun y hy => hx y (List.mem_cons_of_mem z hy)⟩
      rcases mem_enqueue.mp hy with rfl | hy
      · exact ⟨h, hsymm z (hx z List.mem_cons_self)⟩
      · exact hz y hy
    · simp only [enqueue, h, if_false]
      refine List.pairwise_cons.mpr ⟨fun y hy => ⟨?_, hx y hy⟩, hq⟩
      rcases List.mem_cons.mp hy with rfl | hy
      · omega
      · have := (hz y hy).1
        omega

theorem totalCharge_sublist {q r : List QItem} (h : r.Sublist q) : totalCharge r ≤ totalCharge q := by
  induction h with
  | slnil => exact Nat.le_refl _
  | cons x _ ih => exact ih.trans (Nat.le_add_left _ _)
  | cons_cons x _ ih => exact Nat.add_le_add_left ih _

theorem evictBack_sublist (sev : Nat) (q : List QItem) : ∀ n, (evictBack sev q n).1.Sublist q := by
  induction q with
  | nil => intro n; simp [evictBack]
  | cons x q ih =>
    intro n
    simp only [evictBack]
    split
    · exact List.Sublist.refl _
    · split
      · exact (ih _).trans (List.sublist_cons_self x q)
      · exact List.Sublist.refl _

/-- What fitting in leaves: part of the wanted queue, or the other one (R130). -/
theorem fitIn_queue (c : Ctx) (x : QItem) (wanted otherwise : List QItem) (q : QueueSide) :
    (fitIn c x wanted otherwise q).1.queue.Sublist wanted ∨ (fitIn c x wanted otherwise q).1.queue = otherwise := by
  simp only [fitIn]
  split
  · left
    have := (evictBack_sublist x.severity wanted.reverse (totalCharge wanted)).reverse
    simpa using this
  · exact .inr rfl

/-! ## A point that joins an own item (R134) -/

theorem mergeTarget_origin {c : Ctx} {f : FaultNews} {x : QItem} (h : mergeTarget c f x = true) :
    x.item.origin = c.number := by
  unfold mergeTarget at h
  split at h <;> rename_i hi <;> simp_all

/-- The merged target keeps its origin and severity, and covers the offer's point beside its own. -/
theorem mergeInto_spec {c : Ctx} {f : FaultNews} {x : QItem} (h : mergeTarget c f x = true) :
    (mergeInto c f x).item.origin = x.item.origin ∧
    (mergeInto c f x).severity = x.severity ∧ (mergeInto c f x).item.points = x.item.points ++ [f.point] := by
  unfold mergeInto
  split <;> rename_i hi
  · simp [hi, FaultNews.asPoint]
  · simp [hi, FaultNews.asPoint]
  · simp [mergeTarget, hi] at h
  · simp [mergeTarget, hi] at h

theorem mem_mergeFirst {c : Ctx} {view : List Entry} {f : FaultNews} {q : List QItem} {y : QItem}
    (h : y ∈ mergeFirst c view f q) :
    (∃ x ∈ q, y.Shrinks x ∧ ¬ y.Covers f.origin f.point) ∨ ∃ x ∈ q, mergeTarget c f x = true ∧ y = mergeInto c f x := by
  have hreplaced : ∀ {l : List QItem}, y ∈ replaceKey view f.origin f.point l → l ⊆ q →
      ∃ x ∈ q, y.Shrinks x ∧ ¬ y.Covers f.origin f.point := by
    intro l hy hl
    obtain ⟨⟨x, hx, hyx⟩, hc⟩ := mem_replaceKey hy
    exact ⟨x, hl hx, hyx, hc⟩
  induction q with
  | nil => cases h
  | cons z q ih =>
    rw [mergeFirst] at h
    split at h
    · rename_i ht
      rcases List.mem_cons.mp h with rfl | h
      · exact .inr ⟨z, List.mem_cons_self, ht, rfl⟩
      · exact .inl (hreplaced h (List.subset_cons_self z q))
    · rcases List.mem_append.mp h with h | h
      · exact .inl (hreplaced h (by simp))
      · have hlift : ∀ {P : QItem → Prop}, (∃ x ∈ q, P x) → ∃ x ∈ z :: q, P x :=
          fun ⟨x, hx, hP⟩ => ⟨x, List.mem_cons_of_mem z hx, hP⟩
        exact (ih h fun hy hl => by
          obtain ⟨⟨x, hx, hyx⟩, hc⟩ := mem_replaceKey hy
          exact ⟨x, hl hx, hyx, hc⟩).imp hlift hlift

/-- A key covered by the merged target is one it covered before, or the offer's. -/
theorem covers_mergeInto {c : Ctx} {f : FaultNews} {t : QItem} {o p : Nat} (hf : f.origin = c.number)
    (ht : mergeTarget c f t = true) (h : (mergeInto c f t).Covers o p) :
    t.Covers o p ∨ o = f.origin ∧ p = f.point := by
  obtain ⟨ho, hp⟩ := h
  obtain ⟨horigin, -, hpoints⟩ := mergeInto_spec ht
  rw [horigin] at ho
  rw [hpoints, List.mem_append, List.mem_singleton] at hp
  rcases hp with hp | hp
  · exact .inl ⟨ho, hp⟩
  · exact .inr ⟨by rw [← ho, mergeTarget_origin ht, hf], hp⟩

theorem QItem.overlaps_iff (x y : QItem) : x.Overlaps y ↔ ∃ o p, x.Covers o p ∧ y.Covers o p := by
  constructor
  · rintro ⟨ho, p, hx, hy⟩
    exact ⟨_, p, ⟨rfl, hx⟩, ho.symm, hy⟩
  · rintro ⟨o, p, ⟨hxo, hx⟩, hyo, hy⟩
    exact ⟨hxo.trans hyo.symm, p, hx, hy⟩

/-- An item that does not cover the merged key keeps its place behind the merged target. -/
theorem mergeInto_precedes {c : Ctx} {f : FaultNews} {t y b : QItem} (hf : f.origin = c.number)
    (ht : mergeTarget c f t = true) (h : t.Precedes y) (hby : b.Shrinks y) (hkey : ¬ b.Covers f.origin f.point) :
    (mergeInto c f t).Precedes b := by
  refine ⟨by rw [(mergeInto_spec ht).2.1, hby.severity]; exact h.1, fun hov => ?_⟩
  obtain ⟨o, p, hm, hb⟩ := (QItem.overlaps_iff _ _).mp hov
  rcases covers_mergeInto hf ht hm with hm | ⟨rfl, rfl⟩
  · exact h.2 ((QItem.overlaps_iff _ _).mpr ⟨o, p, hm, hby.covers hb⟩)
  · exact hkey hb

/-- An item that does not cover the merged key keeps its place before the merged target. -/
theorem precedes_mergeInto {c : Ctx} {f : FaultNews} {x t a : QItem} (hf : f.origin = c.number)
    (ht : mergeTarget c f t = true) (h : x.Precedes t) (hax : a.Shrinks x) (hkey : ¬ a.Covers f.origin f.point) :
    a.Precedes (mergeInto c f t) := by
  refine ⟨by rw [(mergeInto_spec ht).2.1, hax.severity]; exact h.1, fun hov => ?_⟩
  obtain ⟨o, p, ha, hm⟩ := (QItem.overlaps_iff _ _).mp hov
  rcases covers_mergeInto hf ht hm with hm | ⟨rfl, rfl⟩
  · exact h.2 ((QItem.overlaps_iff _ _).mpr ⟨o, p, hax.covers ha, hm⟩)
  · exact hkey ha

theorem pairwise_mergeFirst {c : Ctx} {view : List Entry} {f : FaultNews} (hf : f.origin = c.number) {q : List QItem}
    (h : q.Pairwise QItem.Precedes) : (mergeFirst c view f q).Pairwise QItem.Precedes := by
  induction q with
  | nil => exact List.Pairwise.nil
  | cons x q ih =>
    obtain ⟨hx, hq⟩ := List.pairwise_cons.mp h
    rw [mergeFirst]
    split
    · rename_i ht
      refine List.pairwise_cons.mpr ⟨fun b hb => ?_, pairwise_replaceKey hq⟩
      obtain ⟨⟨y, hy, hby⟩, hkey⟩ := mem_replaceKey hb
      exact mergeInto_precedes hf ht (hx y hy) hby hkey
    · refine List.pairwise_append.mpr ⟨pairwise_replaceKey (List.pairwise_singleton _ x), ih hq, fun a ha b hb => ?_⟩
      obtain ⟨⟨x', hx', hax⟩, hkey⟩ := mem_replaceKey ha
      obtain rfl := List.mem_singleton.mp hx'
      rcases mem_mergeFirst hb with ⟨y, hy, hby, -⟩ | ⟨y, hy, ht, rfl⟩
      · exact (hx y hy).shrink hax hby
      · exact precedes_mergeInto hf ht (hx y hy) hax hkey

/-! ## A point split out for its acknowledgement (R125, R129) -/

/-- What the split makes of one item: the item itself, or a COMPACT without the point with the point's FAULT behind it. -/
theorem splitForAck_one (view : List Entry) (a : AckNews) (x : QItem) :
    splitForAck view a [x] = [x] ∨
    ∃ n y, x.item = .compact n ∧ y ∈ n.points ∧ y.point = a.point ∧ splitForAck view a [x] =
      (withoutKey view a.point x).toList ++ [{ x with item := .fault (compactFault view n y (some a.ack)) }] := by
  simp only [splitForAck, List.flatMap_cons, List.flatMap_nil, List.append_nil]
  cases hi : x.item with
  | compact n =>
    cases hy : n.points.find? (·.point == a.point) with
    | none => simp [hy]
    | some y =>
      by_cases ho : n.origin = a.origin
      · refine .inr ⟨n, y, rfl, List.mem_of_find?_eq_some hy, by simpa using List.find?_some hy, ?_⟩
        simp [hy, ho]
      · simp [hy, ho]
  | fault f => simp
  | ack a => simp
  | alive a => simp

theorem splitForAck_cons (view : List Entry) (a : AckNews) (x : QItem) (q : List QItem) :
    splitForAck view a (x :: q) = splitForAck view a [x] ++ splitForAck view a q := by
  simp [splitForAck]

theorem splitForAck_one_spec {view : List Entry} {a : AckNews} {x : QItem} :
    (splitForAck view a [x]).Pairwise QItem.Precedes ∧ ∀ b ∈ splitForAck view a [x], b.Shrinks x := by
  rcases splitForAck_one view a x with h | ⟨n, y, hn, hy, hp, h⟩
  · rw [h]
    exact ⟨List.pairwise_singleton _ x, by simp [QItem.Shrinks.refl]⟩
  · have hfault : ({ x with item := .fault (compactFault view n y (some a.ack)) } : QItem).Shrinks x := by
      refine ⟨by simp [hn, compactFault], rfl, ?_⟩
      simpa [hn, compactFault] using ⟨y, hy, rfl⟩
    rw [h]
    cases hw : withoutKey view a.point x with
    | none => exact ⟨List.pairwise_singleton _ _, by simpa using hfault⟩
    | some z =>
      obtain ⟨hz, hnot⟩ := withoutKey_shrinks hw
      constructor
      · refine List.pairwise_cons.mpr ⟨fun b hb => ?_, List.pairwise_singleton _ _⟩
        obtain rfl := List.mem_singleton.mp hb
        refine ⟨by simp [hz.severity], ?_⟩
        rintro ⟨-, p, hpz, hpf⟩
        simp only [Item.points_fault, compactFault, List.mem_singleton] at hpf
        exact hnot (by rwa [hpf, hp] at hpz)
      · intro b hb
        simp only [Option.toList_some, List.cons_append, List.nil_append, List.mem_cons, List.not_mem_nil,
          or_false] at hb
        rcases hb with rfl | rfl
        · exact hz
        · exact hfault

theorem mem_splitForAck {view : List Entry} {a : AckNews} {q : List QItem} {b : QItem} (h : b ∈ splitForAck view a q) :
    ∃ x ∈ q, b.Shrinks x := by
  induction q with
  | nil => cases h
  | cons x q ih =>
    rw [splitForAck_cons, List.mem_append] at h
    rcases h with h | h
    · exact ⟨x, List.mem_cons_self, splitForAck_one_spec.2 b h⟩
    · obtain ⟨y, hy, hb⟩ := ih h
      exact ⟨y, List.mem_cons_of_mem x hy, hb⟩

theorem pairwise_splitForAck {view : List Entry} {a : AckNews} {q : List QItem} (h : q.Pairwise QItem.Precedes) :
    (splitForAck view a q).Pairwise QItem.Precedes := by
  induction q with
  | nil => exact List.Pairwise.nil
  | cons x q ih =>
    obtain ⟨hx, hq⟩ := List.pairwise_cons.mp h
    rw [splitForAck_cons]
    refine List.pairwise_append.mpr ⟨splitForAck_one_spec.1, ih hq, fun b hb d hd => ?_⟩
    obtain ⟨y, hy, hdy⟩ := mem_splitForAck hd
    exact (hx y hy).shrink (splitForAck_one_spec.2 b hb) hdy

theorem mergeAck_item_shrinks (a : AckNews) (x : QItem) :
    (match x.item with
      | .fault f =>
        if f.origin = a.origin ∧ f.point = a.point then { x with item := .fault { f with ack := some a.ack } } else x
      | .ack _ => x
      | .compact _ => x
      | .alive _ => x : QItem).Shrinks x := by
  split
  · rename_i f hf
    split
    · exact ⟨by simp [hf], rfl, by simp [hf]⟩
    · exact .refl x
  all_goals exact .refl x

theorem mem_mergeAck {a : AckNews} {q : List QItem} {b : QItem} (h : b ∈ mergeAck a q) : ∃ x ∈ q, b.Shrinks x := by
  obtain ⟨x, hx, rfl⟩ := List.mem_map.mp h
  exact ⟨x, hx, mergeAck_item_shrinks a x⟩

theorem pairwise_mergeAck {a : AckNews} {q : List QItem} (h : q.Pairwise QItem.Precedes) :
    (mergeAck a q).Pairwise QItem.Precedes :=
  List.pairwise_map.mpr (h.imp fun hxy => hxy.shrink (mergeAck_item_shrinks a _) (mergeAck_item_shrinks a _))

/-! ## One offer (R126) -/

/-- The list an offer is placed into: what the item `y`, as the per-key check left it, makes of the queue `q`. -/
inductive PlacedAs (c : Ctx) (view : List Entry) (y : QItem) (q : List QItem) : List QItem → Prop
  | loses {l : List QItem} (h : l.Sublist q) : PlacedAs c view y q l
  | merges (f : FaultNews) (hy : y.item = .fault f) (hf : f.origin = c.number) : PlacedAs c view y q (mergeFirst c view f q)
  | joins {l : List QItem} (z : QItem) (horigin : z.item.origin = y.item.origin)
      (hpoints : z.item.points = y.item.points)
      (h : l.Sublist (enqueue (y.item.points.foldl (fun l p => replaceKey view y.item.origin p l) q) z) ∨
        l = y.item.points.foldl (fun l p => replaceKey view y.item.origin p l) q) : PlacedAs c view y q l
  | acknowledges (a : AckNews) : PlacedAs c view y q (mergeAck a q)
  | splits {l : List QItem} (a : AckNews) (h : l.Sublist (splitForAck view a q)) : PlacedAs c view y q l

theorem carryAck_keeps (q : List QItem) (f : FaultNews) :
    (carryAck q f).origin = f.origin ∧ (carryAck q f).point = f.point := by
  unfold carryAck
  repeat' split
  all_goals exact ⟨rfl, rfl⟩

theorem insertOffer_placedAs (c : Ctx) (view : List Entry) (y : QItem) (q : QueueSide) :
    PlacedAs c view y q.queue (insertOffer c view y q).1.queue := by
  simp only [insertOffer]
  refine .joins _ ?_ ?_ (fitIn_queue ..)
  all_goals
    cases hi : y.item with
    | fault f => simp [carryAck_keeps]
    | ack a => simp [hi]
    | compact n => simp [hi]
    | alive a => simp [hi]

theorem offerAck_placedAs (c : Ctx) (view : List Entry) (y : QItem) (a : AckNews) (q : QueueSide) :
    PlacedAs c view y q.queue (offerAck c view y a q).1.queue := by
  unfold offerAck
  split
  · exact insertOffer_placedAs ..
  · split
    · split
      · split
        · exact .loses (List.Sublist.refl _)
        · exact .acknowledges a
      · rcases fitIn_queue c y (splitForAck view a q.queue) q.queue q with h | h
        · exact .splits a h
        · exact .loses (by rw [h])
      · exact insertOffer_placedAs ..
      · exact insertOffer_placedAs ..
    · exact insertOffer_placedAs ..

theorem condensedMerge_queue {c : Ctx} {view : List Entry} {y : QItem} {q r : QueueSide}
    (h : condensedMerge c view y q = some r) :
    ∃ f, y.item = .fault f ∧ f.origin = c.number ∧ r.queue = mergeFirst c view f q.queue := by
  unfold condensedMerge at h
  split at h
  · rename_i f hf
    split at h
    · rename_i hown
      split at h
      · cases h
      · split at h
        · cases h
          exact ⟨f, hf, hown.2.2.2, rfl⟩
        · cases h
    · cases h
  all_goals cases h

theorem placeOffer_placedAs (c : Ctx) (view : List Entry) (y : QItem) (q : QueueSide) :
    PlacedAs c view y q.queue (placeOffer c view y q).1.queue := by
  unfold placeOffer
  split
  · exact .loses (List.Sublist.refl _)
  · split
    · rename_i merged hmerged
      split at hmerged
      · obtain ⟨f, hf, ho, hr⟩ := condensedMerge_queue hmerged
        rw [QueueSide.placed_fst, hr]
        exact .merges f hf ho
      · cases hmerged
    · split
      · exact offerAck_placedAs ..
      · exact insertOffer_placedAs ..
      · exact insertOffer_placedAs ..
      · exact insertOffer_placedAs ..

/-- What one offer makes of the queue: nothing, or what the placing of the checked offer makes of it. -/
theorem offerCore_cases (c : Ctx) (roll : Vector RollRecord 240) (view : List Entry) (x : QItem) (q : QueueSide) :
    offerCore c roll view x q = q ∨ ∃ y, PlacedAs c view y q.queue (offerCore c roll view x q).queue := by
  simp only [offerCore, offerTested]
  split
  · split
    · exact .inl rfl
    · split
      · exact .inl rfl
      · rename_i y _
        exact .inr ⟨y, by simpa using placeOffer_placedAs c view y q⟩
  · exact .inl rfl

/-! ## What placing an offer keeps -/

theorem PlacedAs.pairwise {c : Ctx} {view : List Entry} {y : QItem} {q l : List QItem} (h : PlacedAs c view y q l)
    (hq : q.Pairwise QItem.Precedes) : l.Pairwise QItem.Precedes := by
  obtain ⟨hkept, hmem⟩ := replaceKeys_spec (view := view) (o := y.item.origin) y.item.points q
  cases h with
  | loses h => exact hq.sublist h
  | merges f hy hf => exact pairwise_mergeFirst hf hq
  | joins z horigin hpoints h =>
    rcases h with h | rfl
    · refine (pairwise_enqueue (hkept hq) fun w hw => ?_).sublist h
      rintro ⟨ho, p, hpz, hpw⟩
      exact (hmem w hw).2 p (hpoints ▸ hpz) ⟨by rw [← ho, horigin], hpw⟩
    · exact hkept hq
  | acknowledges a => exact pairwise_mergeAck hq
  | splits a h => exact (pairwise_splitForAck hq).sublist h

/-! ## What every change of the queue keeps -/

variable {q r : QueueSide}

/-- The total charge stays within its limit (R123). -/
theorem QueueMoves.charge (h : QueueMoves q r) (hq : totalCharge q.queue ≤ chargeLimit) :
    totalCharge r.queue ≤ chargeLimit := by
  induction h with
  | refl => exact hq
  | tail _ hmove ih =>
    cases hmove with
    | loses h => exact (totalCharge_sublist h).trans ih
    | recounts g hg h =>
      rw [h, totalCharge_map g fun x => by rw [(hg x).1]]
      exact ih
    | offer c roll view x => exact offerCore_charge ih

/-- The queue stays in order with no key covered twice (R125, R128). -/
theorem QueueMoves.pairwise (h : QueueMoves q r) (hq : q.queue.Pairwise QItem.Precedes) :
    r.queue.Pairwise QItem.Precedes := by
  induction h with
  | refl => exact hq
  | tail _ hmove ih =>
    cases hmove with
    | loses h => exact ih.sublist h
    | recounts g hg h =>
      have hshrinks : ∀ x, (g x).Shrinks x := fun x => ⟨by rw [(hg x).1], (hg x).2, by rw [(hg x).1]; simp⟩
      rw [h]
      exact List.pairwise_map.mpr (ih.imp fun hxy => hxy.shrink (hshrinks _) (hshrinks _))
    | offer c roll view x =>
      rcases offerCore_cases c roll view x _ with heq | ⟨y, hplaced⟩
      · rw [heq]
        exact ih
      · exact hplaced.pairwise ih

end Sys2Proof.Machine

/-! The ranges of what a good bulletin hands on (R151): the sender, and the origin, points and severity of each item. -/

namespace Sys2Proof.Machine

/-- An item as the parse lets it through: origin 1..240, points 0..31, severity 1..7 where it carries one. -/
def Item.Heard (i : Item) : Prop :=
  1 ≤ i.origin ∧ i.origin ≤ 240 ∧
    match i with
    | .fault f => f.point ≤ 31 ∧ 1 ≤ f.severity ∧ f.severity ≤ 7
    | .ack a => a.point ≤ 31
    | .compact n => (∀ y ∈ n.points, y.point ≤ 31) ∧ 1 ≤ n.severity ∧ n.severity ≤ 7
    | .alive _ => True

theorem stationOk_iff (b : Byte) : stationOk b = true ↔ 1 ≤ b.toNat ∧ b.toNat ≤ 240 := by simp [stationOk]

theorem pointOk_iff (b : Byte) : pointOk b = true ↔ b.toNat ≤ 31 := by simp [pointOk]

theorem itemSeverity_range {b : Byte} {sev : Nat} (h : itemSeverity b = some sev) : 1 ≤ sev ∧ sev ≤ 7 := by
  unfold itemSeverity at h
  split at h
  · cases h
  · cases h
    omega

theorem parseFault_heard {now : Time} {bs rest : List Byte} {i : Item} (h : parseFault now bs = some (i, rest)) :
    i.Heard := by
  unfold parseFault at h
  split at h
  · split at h
    · rename_i hok
      simp only [Bool.and_eq_true, stationOk_iff, pointOk_iff] at hok
      split at h
      · rename_i hsev _
        split at h
        · cases h
        · split at h
          · cases h
          · cases h
            exact ⟨hok.1.1, hok.1.2, hok.2, itemSeverity_range hsev⟩
      · cases h
    · cases h
  · cases h

theorem parseAckItem_heard {bs rest : List Byte} {i : Item} (h : parseAckItem bs = some (i, rest)) : i.Heard := by
  unfold parseAckItem at h
  split at h
  · split at h
    · rename_i hok
      simp only [Bool.and_eq_true, stationOk_iff, pointOk_iff] at hok
      cases h
      exact ⟨hok.1.1.1.1, hok.1.1.1.2, hok.1.1.2⟩
    · cases h
  · cases h

theorem parsePoints_range {now : Time} : ∀ {n : Nat} {bs rest : List Byte} {xs : List CompactPoint},
    parsePoints now n bs = some (xs, rest) → ∀ y ∈ xs, y.point ≤ 31
  | 0, bs, rest, xs, h, y, hy => by
    cases h
    cases hy
  | n + 1, bs, rest, xs, h, y, hy => by
    unfold parsePoints at h
    split at h
    · cases ‹n + 1 = 0›
    · rename_i n' p c0 c1 a0 a1 tail heq
      cases heq
      split at h
      · rename_i hp
        split at h
        · cases h
        · rename_i ys rest' hys
          cases h
          rcases List.mem_cons.mp hy with rfl | hy
          · exact (pointOk_iff p).mp hp
          · exact parsePoints_range hys y hy
      · cases h
    · cases h

theorem parseCompact_heard {now : Time} {bs rest : List Byte} {i : Item} (h : parseCompact now bs = some (i, rest)) :
    i.Heard := by
  unfold parseCompact at h
  split at h
  · split at h
    · rename_i hok
      simp only [Bool.and_eq_true, stationOk_iff, decide_eq_true_eq] at hok
      split at h
      · rename_i hsev _
        split at h
        · cases h
        · rename_i xs rest' hxs
          split at h
          · cases h
            exact ⟨hok.1.1, hok.1.2, parsePoints_range hxs, itemSeverity_range hsev⟩
          · cases h
      · cases h
    · cases h
  · cases h

theorem parseAlive_heard {bs rest : List Byte} {i : Item} (h : parseAlive bs = some (i, rest)) : i.Heard := by
  unfold parseAlive at h
  split at h
  · split at h
    · rename_i hok
      simp only [Bool.and_eq_true, stationOk_iff] at hok
      cases h
      exact ⟨hok.1.1.1.1, hok.1.1.1.2, trivial⟩
    · cases h
  · cases h

theorem parseItem_heard {now : Time} {bs rest : List Byte} {i : Item} (h : parseItem now bs = some (i, rest)) :
    i.Heard := by
  unfold parseItem at h
  split at h
  · cases h
  · split at h
    · exact parseFault_heard h
    · split at h
      · exact parseAckItem_heard h
      · split at h
        · exact parseCompact_heard h
        · split at h
          · exact parseAlive_heard h
          · cases h

theorem parseItems_heard {now : Time} : ∀ {n : Nat} {bs : List Byte} {items : List Item},
    parseItems now n bs = some items → ∀ i ∈ items, i.Heard
  | 0, [], items, h, i, hi => by
    cases h
    cases hi
  | 0, _ :: _, items, h, i, hi => by cases h
  | n + 1, bs, items, h, i, hi => by
    unfold parseItems at h
    split at h
    · cases h
    · rename_i j rest hj
      obtain ⟨tail, htail, rfl⟩ := Option.map_eq_some_iff.mp h
      rcases List.mem_cons.mp hi with rfl | hi
      · exact parseItem_heard hj
      · exact parseItems_heard htail i hi

/-- A bulletin that parses comes from a station 1..240 and holds items in their ranges (R151). -/
theorem parseBulletin_heard {now : Time} {bs : List Byte} {b : Bulletin} (h : parseBulletin now bs = some b) :
    1 ≤ b.sender ∧ b.sender ≤ 240 ∧ ∀ i ∈ b.items, i.Heard := by
  unfold parseBulletin at h
  split at h
  · split at h
    · rename_i hok
      simp only [Bool.and_eq_true, stationOk_iff] at hok
      obtain ⟨items, hitems, rfl⟩ := Option.map_eq_some_iff.mp h
      exact ⟨hok.1.1, hok.1.2, parseItems_heard hitems⟩
    · cases h
  · cases h

end Sys2Proof.Machine

/-! What an event can do to the county side (view, queue, roll, own stamps), said once as single moves with what is known of
each; and that every operation of chapters 6 to 8 is a run of such moves. An invariant of the county side is then a case
analysis over the moves. -/

namespace Sys2Proof.Machine

/-! ## What a change of an entry keeps -/

/-- `e'` is what an operation of the view makes of the entry `e` in its place. -/
structure Entry.Follows (c : Ctx) (e e' : Entry) : Prop where
  origin : e'.origin = e.origin
  point : e'.point = e.point
  own : e'.own = e.own
  localOnly : e'.localOnly = e.localOnly
  severity : e'.severity = e.severity ∨ 1 ≤ e'.severity ∧ e'.severity ≤ 7
  standing : e.origin = c.number → e'.kind = e.kind ∧ (e'.state = e.state ∨ e.state = .cleared)

/-- An entry that the view creates for a heard item or a silent station. -/
structure Entry.Created (c : Ctx) (e : Entry) : Prop where
  own : e.own = false
  origin : e.origin ≠ c.number
  reach : e.localOnly = true ∨ e.point < 32
  severity : (1 ≤ e.severity ∧ e.severity ≤ 7) ∨ ∃ k, e.severity = c.cfg.severityOf k

/-- One move of the county side. -/
inductive County.Move (c : Ctx) : County → County → Prop
  | rest {k k' : County} (hview : k'.view = k.view) (hqueue : k'.queue = k.queue) : Move c k k'
  | queue {k : County} {q : QueueSide} (h : QueueMove k.toQueueSide q) :
      Move c k { k with toQueueSide := q }
  | entries {k : County} (g : Entry → Entry) (hg : ∀ e ∈ k.view, e.Follows c (g e)) :
      Move c k { k with view := k.view.map g }
  | replaces {k : County} (o p : Nat) (e e' : Entry) (ho : o ≠ c.number) (he : findEntry k.view o p = some e)
      (h : e.Follows c e') : Move c k { k with view := updateEntry k.view o p fun _ => e' }
  | expires {k : County} (f : Entry → Bool) (h : ∀ e ∈ k.view, f e = false → e.state = .retired) :
      Move c k { k with view := k.view.filter f }
  | creates {k : County} (e : Entry) (hnone : findEntry k.view e.origin e.point = none) (h : e.Created c) :
      Move c k { k with toViewSide := (createEntry c e k.toViewSide).1 }

/-- Any number of moves of the county side. -/
abbrev County.Moves (c : Ctx) : County → County → Prop := Relation.ReflTransGen (County.Move c)

variable {c : Ctx} {k : County}

/-! ## Entries that follow -/

theorem Entry.Follows.refl (c : Ctx) (e : Entry) : e.Follows c e :=
  ⟨rfl, rfl, rfl, rfl, .inl rfl, fun _ => ⟨rfl, .inl rfl⟩⟩

theorem Entry.acknowledged_follows (c : Ctx) (e : Entry) (a : Ack) (t : Time) :
    e.Follows c (e.acknowledged a t) := by
  cases hst : e.state <;> simp only [Entry.acknowledged, hst] <;>
    exact ⟨rfl, rfl, rfl, rfl, .inl rfl, fun _ => ⟨rfl, by simp [hst]⟩⟩

/-- Fields that no invariant reads may change freely. -/
theorem Entry.Follows.of_same {c : Ctx} {e e' : Entry} (ho : e'.origin = e.origin)
    (hp : e'.point = e.point) (hown : e'.own = e.own) (hl : e'.localOnly = e.localOnly) (hsev : e'.severity = e.severity)
    (hk : e'.kind = e.kind) (hst : e'.state = e.state) : e.Follows c e' :=
  ⟨ho, hp, hown, hl, .inl hsev, fun _ => ⟨hk, .inl hst⟩⟩

theorem Entry.Follows.trans_same {c : Ctx} {e e' : Entry} (t : Time) (b : Bool)
    (h : ({ e with lastHeard := t, stale := b } : Entry).Follows c e') : e.Follows c e' :=
  ⟨h.origin, h.point, h.own, h.localOnly, h.severity, h.standing⟩

/-- An entry changed in place at one key, the others left. -/
theorem County.Moves.update (o p : Nat) (f : Entry → Entry)
    (hf : ∀ e ∈ k.view, e.origin = o → e.point = p → e.Follows c (f e)) :
    County.Moves c k { k with view := updateEntry k.view o p f } := by
  refine .single (.entries _ fun e he => ?_)
  split
  · rename_i hkey
    obtain ⟨ho, hp⟩ := (e.hasKey_iff o p).mp hkey
    exact hf e he ho hp
  · exact .refl c e

/-! ## The queue under the county side -/

theorem County.Moves.queue {q : QueueSide} (h : QueueMoves k.toQueueSide q) :
    County.Moves c k { k with toQueueSide := q } := by
  induction h with
  | refl => exact .refl
  | tail _ hmove ih => exact ih.tail (.queue (k := { k with toQueueSide := _ }) hmove)

theorem County.offer_moves (x : QItem) : County.Moves c k (k.offer c x) := .queue (offerItem_moves x _)

theorem County.notice_moves (o p : Nat) (st : Stamp) (earlier : List (Nat × Stamp)) :
    County.Moves c k (k.notice c o p st earlier) := .queue (duplicateNotice_moves ..)

theorem County.count_moves (i : CounterId) (n : Nat) : County.Moves c k (k.count i n) := .single (.rest rfl rfl)

theorem County.correct_moves (o p : Nat) : County.Moves c k (k.correct c o p) := by
  unfold County.correct
  split
  · exact .refl
  · split
    · exact County.offer_moves _
    · exact .refl

theorem County.relay_moves (hop severity : Nat) (i : Item) : County.Moves c k (k.relay c hop i severity) := by
  unfold County.relay
  split
  · exact .refl
  · exact County.offer_moves _

/-! ## The roll -/

theorem County.setRecord_moves (o : Nat) (r : RollRecord) : County.Moves c k (k.setRecord o r) := .single (.rest rfl rfl)

theorem entryHeardAgain_follows {o : Nat} (e : Entry) (ho : o ≠ c.number)
    (he : e.origin = o) : e.Follows c (entryHeardAgain c e) := by
  have hne : e.origin ≠ c.number := he ▸ ho
  unfold entryHeardAgain
  split
  · split <;> exact ⟨rfl, rfl, rfl, rfl, .inl rfl, fun h => absurd h hne⟩
  · exact .refl c e

theorem County.evidence_moves {o : Nat} (ho : o ≠ c.number) : County.Moves c k (k.evidence c o) := by
  have hrecord : County.Moves c k (k.setRecord o { k.record o with lastHeard := c.now, silent := false }) :=
    County.setRecord_moves _ _
  simp only [County.evidence]
  split
  · exact hrecord.trans (County.Moves.update o stationPoint _ fun e _ he _ => entryHeardAgain_follows e ho he)
  · exact hrecord

theorem closeEntry_follows {o : Nat} (start : Half) (e : Entry) (ho : o ≠ c.number) :
    e.Follows c (closeEntry c o start e) := by
  unfold closeEntry
  split
  · exact .refl c e
  · split
    · rename_i h
      have hne : e.origin ≠ c.number := h.1 ▸ ho
      split
      · split
        · exact ⟨rfl, rfl, rfl, rfl, .inl rfl, fun he => absurd he hne⟩
        · exact ⟨rfl, rfl, rfl, rfl, .inl rfl, fun he => absurd he hne⟩
      · exact ⟨rfl, rfl, rfl, rfl, .inl rfl, fun he => absurd he hne⟩
      · exact .refl c e
      · exact .refl c e
    · exact .refl c e

theorem County.advanceEpoch_moves {o : Nat} (start : Half) (ho : o ≠ c.number) :
    County.Moves c k (k.advanceEpoch c o start) := by
  have hclosed : County.Moves c k { k.setRecord o { k.record o with newest := some start } with
      view := k.view.map (closeEntry c o start) } :=
    (County.setRecord_moves _ _).tail (.entries (k := k.setRecord o _) _ fun e _ => closeEntry_follows start e ho)
  exact hclosed.trans (County.Moves.queue (afterChange_moves_of_sublist List.filter_sublist))

theorem County.takeStart_moves {o : Nat} (start : Half) (ho : o ≠ c.number) :
    County.Moves c k (k.takeStart c o start) := by
  unfold County.takeStart
  split
  · exact County.setRecord_moves _ _
  · split
    · exact .refl
    · split
      · exact County.advanceEpoch_moves start ho
      · exact .refl

/-! ## Own stamps -/

theorem County.setOwnStart_moves (start : Half) : County.Moves c k (k.setOwnStart c start) :=
  .single (.rest rfl rfl)

/-- The county side with one own entry re-stamped and its mark cleared, before its news is offered (R121). -/
def County.restamped (c : Ctx) (k : County) (p : Nat) : County :=
  { k with
    nextChange := k.nextChange + 1
    view := updateEntry k.view c.number p fun e =>
      { e with stamp := some ⟨k.ownStart, k.nextChange⟩, lastHeard := c.now, ack := none }
    unsent := tset k.unsent p false }

theorem County.restampOne_eq (c : Ctx) (k : County) (p : Nat) :
    k.restampOne c p = match findEntry (k.restamped c p).view c.number p with
      | none => k.restamped c p
      | some e => (k.restamped c p).offer c (resyncItem c e) := rfl

theorem County.restamped_moves (p : Nat) : County.Moves c k (k.restamped c p) := by
  have hupdate : County.Moves c k { k with view := updateEntry k.view c.number p fun e =>
      { e with stamp := some ⟨k.ownStart, k.nextChange⟩, lastHeard := c.now, ack := none } } :=
    County.Moves.update _ _ _ fun _ _ _ _ =>
      ⟨rfl, rfl, rfl, rfl, .inl rfl, fun _ => ⟨rfl, .inl rfl⟩⟩
  exact hupdate.tail (.rest rfl rfl)

theorem County.restampOne_moves (p : Nat) : County.Moves c k (k.restampOne c p) := by
  rw [County.restampOne_eq]
  split
  · exact County.restamped_moves p
  · exact (County.restamped_moves p).trans (County.offer_moves _)

theorem County.Moves.foldl {α : Type} {f : County → α → County} {l : List α}
    (h : ∀ x k, County.Moves c k (f k x)) (k : County) : County.Moves c k (l.foldl f k) := by
  induction l generalizing k with
  | nil => exact .refl
  | cons x l ih => exact (h x k).trans (ih (f k x))

theorem County.offerAlive_moves : County.Moves c k (k.offerAlive c) := County.offer_moves _

theorem County.dropOldOwn_moves : County.Moves c k (k.dropOldOwn c) :=
  .queue (afterChange_moves_of_sublist (by simp))

theorem County.restampAll_moves : County.Moves c k (k.restampAll c) :=
  ((County.Moves.foldl (fun p _ => County.restampOne_moves p) k).trans County.offerAlive_moves).trans
    County.dropOldOwn_moves

theorem County.advanceStart_moves : County.Moves c k (k.advanceStart c) :=
  (County.setOwnStart_moves _).trans County.restampAll_moves

theorem County.takeStamp_moves : County.Moves c k (k.takeStamp c).1 := by
  simp only [County.takeStamp]
  split
  · exact .single (.rest rfl rfl)
  · exact County.advanceStart_moves.tail (.rest rfl rfl)

theorem County.recoverStart_moves (heard : Half) : County.Moves c k (k.recoverStart c heard) := by
  have hlatched : County.Moves c k { k with stampConflict := true } := .single (.rest rfl rfl)
  unfold County.recoverStart
  exact (hlatched.trans (County.setOwnStart_moves _)).trans County.restampAll_moves

theorem County.ownChangeHeard_moves (x : Half) : County.Moves c k (k.ownChangeHeard x) := by
  unfold County.ownChangeHeard
  split
  · exact .single (.rest rfl rfl)
  · exact .refl

theorem County.offerOwn_moves (p : Nat) : County.Moves c k (k.offerOwn c p) := by
  unfold County.offerOwn
  split
  · exact .refl
  · exact County.offer_moves _

/-! ## Merges -/

/-- A FAULT, or a COMPACT point taken as one, that may be merged: of another station, in its
ranges. -/
structure FaultNews.Mergeable (c : Ctx) (f : FaultNews) : Prop where
  origin : f.origin ≠ c.number
  point : f.point ≤ 31
  severity : 1 ≤ f.severity ∧ f.severity ≤ 7

theorem newEntry_created {f : FaultNews} (compact : Bool) (h : f.Mergeable c) :
    (newEntry c compact f).Created c :=
  ⟨rfl, h.origin, .inr (Nat.lt_succ_of_le h.point), .inl h.severity⟩

theorem renewedEntry_follows {f : FaultNews} (compact : Bool) {e : Entry}
    (h : f.Mergeable c) (he : e.origin = f.origin) : e.Follows c (renewedEntry c compact f e) := by
  have hne : e.origin ≠ c.number := he ▸ h.origin
  unfold renewedEntry
  split <;> exact ⟨rfl, rfl, rfl, rfl, .inr h.severity, fun h => absurd h hne⟩

theorem sameStampEntry_follows (f : FaultNews) (e : Entry) :
    e.Follows c (sameStampEntry c f e).1 := by
  simp only [sameStampEntry]
  split
  · exact Entry.Follows.trans_same c.now false (Entry.acknowledged_follows ..)
  · exact .of_same rfl rfl rfl rfl rfl rfl rfl

theorem County.mergeFault_moves (compact : Bool) {f : FaultNews} (h : f.Mergeable c) :
    County.Moves c k { k with toViewSide := (mergeFault c compact f k.toViewSide).1 } := by
  have hcreate (hnone : findEntry k.view f.origin f.point = none) :
      County.Moves c k { k with toViewSide := (createEntry c (newEntry c compact f) k.toViewSide).1 } :=
    .single (.creates _ hnone (newEntry_created compact h))
  unfold mergeFault
  split
  · rename_i hnone
    split
    · split
      · rename_i hroom
        have hput := hcreate hnone
        rwa [createEntry, if_pos hroom] at hput
      · exact .refl
    · exact hcreate hnone
    · exact hcreate hnone
  · rename_i e he
    simp only
    split
    · exact .single (.replaces _ _ e _ h.origin he (sameStampEntry_follows ..))
    · split
      · exact County.Moves.update _ _ _ fun e _ ho _ => renewedEntry_follows compact h ho
      · exact .refl

theorem County.mergeAckItem_moves (a : AckNews) :
    County.Moves c k { k with toViewSide := (mergeAckItem c a k.toViewSide).1 } := by
  unfold mergeAckItem
  split
  · exact .refl
  · simp only
    split
    · split
      · exact .refl
      · exact County.Moves.update _ _ _ fun e _ _ _ => Entry.acknowledged_follows ..
    · split <;> exact .refl

theorem County.handOutcome_moves (o p : Nat) (st : Stamp) (earlier : List (Nat × Stamp)) (out : MergeOutcome) :
    County.Moves c k (k.handOutcome c o p st earlier out) := by
  cases out with
  | duplicate => exact County.notice_moves ..
  | outdated => exact (County.count_moves _ _).trans (County.correct_moves ..)
  | unplaced => exact County.count_moves _ _
  | created => exact .refl
  | newer => exact .refl
  | ackApplied => exact .refl
  | renewal => exact .refl

end Sys2Proof.Machine

/-! The whole operations of the county side as runs of moves: a heard item and a heard bulletin, the silence check, the
refresh, the minute scan, the items taken into a bulletin, a local acknowledgement. -/

namespace Sys2Proof.Machine

variable {c : Ctx} {k : County}

/-! ## Heard items -/

/-- The county side with an outcome handed on but for its relay (Table 6.4). -/
theorem County.afterMerge_moves {o p : Nat} (st : Stamp) (earlier : List (Nat × Stamp)) (out : MergeOutcome)
    (ho : o ≠ c.number) : County.Moves c k
      ((if out.isLife then k.evidence c o else k).handOutcome c o p st earlier out) := by
  have hlife : County.Moves c k (if out.isLife then k.evidence c o else k) := by
    split
    · exact County.evidence_moves ho
    · exact .refl
  exact hlife.trans (County.handOutcome_moves ..)

theorem County.hearFault_moves {f : FaultNews} (h : f.Mergeable c) : County.Moves c k (k.hearFault c f) := by
  have hmerged := (County.mergeFault_moves (k := k) false h).trans
    (County.afterMerge_moves (p := f.point) f.stamp [] (mergeFault c false f k.toViewSide).2 h.origin)
  simp only [County.hearFault]
  split
  · exact hmerged.trans (County.relay_moves _ _ _)
  · exact hmerged

theorem County.hearAck_moves (a : AckNews) : County.Moves c k (k.hearAck c a) := by
  have hmerged := (County.mergeAckItem_moves (c := c) (k := k) a).trans
    (County.handOutcome_moves a.origin a.point a.stamp [] (mergeAckItem c a k.toViewSide).2)
  simp only [County.hearAck]
  split
  · split
    · exact hmerged
    · exact hmerged.trans (County.relay_moves _ _ _)
  · exact hmerged

/-- A heard COMPACT that may be merged, point by point. -/
structure CompactNews.Mergeable (c : Ctx) (n : CompactNews) : Prop where
  origin : n.origin ≠ c.number
  points : ∀ y ∈ n.points, y.point ≤ 31
  severity : 1 ≤ n.severity ∧ n.severity ≤ 7

theorem CompactNews.Mergeable.at {n : CompactNews} (h : n.Mergeable c) {y : CompactPoint} (hy : y ∈ n.points) :
    (compactNewsAt n y).Mergeable c := ⟨h.origin, h.points y hy, h.severity⟩

theorem County.hearPoint_moves {n : CompactNews} (acc : County × List CompactPoint × List (Nat × Stamp)) {y : CompactPoint}
    (h : n.Mergeable c) (hy : y ∈ n.points) : County.Moves c acc.1 (County.hearPoint c n acc y).1 :=
  (County.mergeFault_moves true (h.at hy)).trans
    (County.afterMerge_moves (o := (compactNewsAt n y).origin) _ _ _ h.origin)

theorem County.hearPoints_moves {n : CompactNews} (h : n.Mergeable c) {l : List CompactPoint} (hl : l ⊆ n.points) :
    ∀ acc : County × List CompactPoint × List (Nat × Stamp),
      County.Moves c acc.1 (l.foldl (County.hearPoint c n) acc).1 := by
  induction l with
  | nil => exact fun _ => .refl
  | cons y l ih =>
    exact fun acc => (County.hearPoint_moves acc h (hl List.mem_cons_self)).trans
      (ih (fun z hz => hl (List.mem_cons_of_mem y hz)) _)

theorem County.hearCompact_moves {n : CompactNews} (h : n.Mergeable c) : County.Moves c k (k.hearCompact c n) := by
  have hmoves := County.hearPoints_moves h (List.Subset.refl n.points) (k, [], [])
  simp only [County.hearCompact]
  split
  · exact hmoves
  · exact hmoves.trans (County.relay_moves _ _ _)

theorem County.hearAlive_moves {a : AliveNews} (prior : Vector RollRecord 240) (ho : a.origin ≠ c.number) :
    County.Moves c k (k.hearAlive c prior a) := by
  simp only [County.hearAlive]
  split
  · exact (County.evidence_moves ho).trans (County.relay_moves _ _ _)
  · exact County.notice_moves ..

theorem County.hearOwn_moves (i : Item) : County.Moves c k (k.hearOwn c i) := by
  unfold County.hearOwn
  split
  · cases i with
    | fault f => exact County.ownChangeHeard_moves _
    | compact n => exact County.Moves.foldl (fun y _ => County.ownChangeHeard_moves _) k
    | ack a => exact (County.ownChangeHeard_moves _).trans (County.hearAck_moves _)
    | alive a => exact .refl
  · split
    · exact County.recoverStart_moves _
    · exact .refl

theorem County.hearItem_moves (prior : Vector RollRecord 240) {i : Item} (h : i.Heard) :
    County.Moves c k (k.hearItem c prior i) := by
  obtain ⟨-, -, hranges⟩ := h
  by_cases hown : i.origin = c.number
  · rw [County.hearItem_of_own prior hown]
    exact County.hearOwn_moves i
  · by_cases hold : olderEpoch k i = true
    · rw [County.hearItem_of_older prior hown hold]
      exact County.count_moves _ _
    · rw [County.hearItem_of_current prior hown (Bool.eq_false_iff.mpr hold)]
      refine (County.takeStart_moves i.start hown).trans ?_
      cases i with
      | fault f => exact County.hearFault_moves ⟨hown, hranges.1, hranges.2⟩
      | ack a => exact County.hearAck_moves a
      | compact n => exact County.hearCompact_moves ⟨hown, hranges.1, hranges.2⟩
      | alive a => exact County.hearAlive_moves _ hown

/-! ## Bulletins -/

theorem County.takeHeader_moves {sender : Nat} (start : Half) (h : sender ≠ c.number) :
    County.Moves c k (k.takeHeader c sender start) := by
  have hstart := County.takeStart_moves (k := k) start h
  simp only [County.takeHeader]
  split
  · exact (hstart.trans (County.evidence_moves h)).trans (County.setRecord_moves _ _)
  · exact hstart.trans (County.Moves.foldl (fun e _ => County.correct_moves _ _) _)

theorem County.hearItems_moves {items : List Item} (h : ∀ i ∈ items, i.Heard) :
    ∀ acc : County × Vector RollRecord 240, County.Moves c acc.1 (items.foldl (County.hearNext c) acc).1 := by
  induction items with
  | nil => exact fun _ => .refl
  | cons i items ih =>
    exact fun acc => (County.hearItem_moves acc.2 (h i List.mem_cons_self)).trans
      (ih (fun j hj => h j (List.mem_cons_of_mem i hj)) (County.hearNext c acc i))

theorem County.hearBulletin_moves {sender : Nat} (start : Half) {items : List Item} (h : ∀ i ∈ items, i.Heard) :
    County.Moves c k (k.hearBulletin c sender start items) := by
  have hcount : County.Moves c k (k.count .heardGood) := County.count_moves _ _
  simp only [County.hearBulletin]
  split
  · exact (hcount.trans (County.count_moves .duplicateStation 1)).tail (.rest rfl rfl)
  · rename_i hother
    exact (hcount.trans (County.takeHeader_moves start hother)).trans (County.hearItems_moves h (_, _))

/-! ## Silence, refresh, scan -/

theorem silentEntry_created {o : Nat} (ho : o ≠ c.number) :
    (silentEntry c o).Created c :=
  ⟨rfl, ho, .inl rfl, .inr ⟨.stationSilent, rfl⟩⟩

theorem reopenSilent_follows {e : Entry} (ho : e.origin ≠ c.number) : e.Follows c (reopenSilent c e) := by
  unfold reopenSilent
  split
  · exact .refl c e
  · exact ⟨rfl, rfl, rfl, rfl, .inl rfl, fun h => absurd h ho⟩

theorem County.checkSilence_moves (o : Nat) : County.Moves c k (k.checkSilence c o) := by
  simp only [County.checkSilence]
  split
  · rename_i hdue
    have hother : o ≠ c.number := by
      simp only [silenceDue, Bool.and_eq_true, decide_eq_true_eq] at hdue
      exact hdue.1.1.2
    split
    · exact (County.setRecord_moves o _).trans (County.Moves.update o stationPoint _ fun e _ he _ =>
        reopenSilent_follows (he ▸ hother))
    · rename_i hnone
      have hcreated : County.Moves c k { k with toViewSide := (createEntry c (silentEntry c o) k.toViewSide).1 } :=
        .single (.creates _ hnone (silentEntry_created hother))
      split
      · exact hcreated.trans (County.setRecord_moves o _)
      · exact hcreated
  · exact .refl

theorem County.checkAllSilence_moves : County.Moves c k (k.checkAllSilence c) :=
  County.Moves.foldl (fun o _ => County.checkSilence_moves o) k

theorem County.refreshOwn_moves : County.Moves c k (k.refreshOwn c) := by
  unfold County.refreshOwn
  split
  · exact .refl
  · exact County.Moves.foldl (fun e _ => County.offer_moves _) k

theorem markStale_follows (e : Entry) : e.Follows c (markStale c e) := by
  unfold markStale
  split
  · exact .of_same rfl rfl rfl rfl rfl rfl rfl
  · exact .refl c e

theorem County.scanView_moves : County.Moves c k { k with view := scanView c k.view } := by
  have hexpire : County.Moves c k { k with view := k.view.filter fun e => !retireDue c.now e } :=
    .single (.expires _ fun e _ hdue => by
      simp only [retireDue, Bool.not_eq_false', Bool.and_eq_true, beq_iff_eq] at hdue
      exact hdue.1)
  exact hexpire.tail (.entries (markStale c) fun e _ => markStale_follows e)

/-! ## Sending and acknowledging -/

theorem markSent_moves (x : QItem) : County.Moves c k { k with view := markSent c x k.view } := by
  have hfold : ∀ (ps : List Nat) (v : List Entry), County.Moves c { k with view := v } { k with
      view := ps.foldl (fun v p => updateEntry v x.item.origin p fun e => { e with lastSent := some c.now }) v } := by
    intro ps
    induction ps with
    | nil => exact fun _ => .refl
    | cons p ps ih =>
      exact fun v => (County.Moves.update (k := { k with view := v }) x.item.origin p
        (fun e => { e with lastSent := some c.now }) fun e _ _ _ => .of_same rfl rfl rfl rfl rfl rfl rfl).trans (ih _)
  unfold markSent
  split
  · exact hfold _ k.view
  · exact .refl

theorem County.takeItem_moves (limit : Nat) (x : QItem) : County.Moves c k (k.takeItem c limit x) :=
  (markSent_moves x).trans (County.Moves.queue (k := { k with view := markSent c x k.view })
    (afterChange_moves_of_sublist List.eraseP_sublist))

theorem County.takeItems_moves (limit : Nat) : ∀ (n used : Nat) (k : County) (taken : List Item),
    County.Moves c k (County.takeItems c limit n used k taken).1
  | 0, _, _, _ => .refl
  | n + 1, used, k, taken => by
    unfold County.takeItems
    split
    · exact .refl
    · split
      · exact (County.takeItem_moves limit _).trans (County.takeItems_moves limit n _ _ _)
      · exact .refl

theorem County.localAck_moves (e : Entry) (operator : Byte) :
    County.Moves c k ((k.ackEntry c e operator).offerAck c e operator) := by
  have hack : County.Moves c k (k.ackEntry c e operator) :=
    County.Moves.update _ _ _ fun e _ _ _ => Entry.acknowledged_follows ..
  unfold County.offerAck
  split
  · exact hack
  · split
    · exact hack
    · exact hack.trans (County.offer_moves _)

end Sys2Proof.Machine

/-! What an event can do to the state, said once: single moves of its parts, and the events as wholes, which end with the
attention output and the access state settled, or leave what these depend on alone, or reset the blocks. An invariant of the
state is then a case analysis over the moves and the events. -/

namespace Sys2Proof.Machine

/-! ## Own entries stored -/

/-- What an own change stores for point `p` (R16 to R18): an entry of this station, own where the entry it changes is. -/
structure Entry.StoredFor (c : Ctx) (view : List Entry) (p : Nat) (e : Entry) : Prop where
  origin : e.origin = c.number
  point : e.point = p
  reach : p < 32
  own : e.own = true ∨ ∃ old ∈ view, old.origin = c.number ∧ e.own = old.own
  severity : (∃ k, e.severity = c.cfg.severityOf k) ∨ ∃ old ∈ view, e.severity = old.severity

/-- The entry stands as a declared state asks for it (R16): ACTIVE of the kind in FAULT, INHIBITED in INHIBITED. -/
def Entry.Shows (e : Entry) : Declared → Prop
  | .unused => True
  | .normal => True
  | .fault k => e.state = .active ∧ e.kind = k
  | .inhibited => e.state = .inhibited

/-- An own change of point `p` to a declared state: a stamp taken, the entry stored, the news offered (R13, R16 to R19). -/
def County.Declares (c : Ctx) (p : Nat) (d : Declared) (k k' : County) : Prop :=
  ∃ k₁ e, County.Moves c k k₁ ∧ e.StoredFor c k₁.view p ∧ e.Shows d ∧ County.Moves c (k₁.putOwn c e) k'

/-! ## Filter and channel records -/

/-- What a sample or a request makes of a filter record in use: ranges kept, a point in FAULT above its off threshold. -/
structure FilterStep (cfg : Settings) (p : Nat) (f f' : FilterRecord) : Prop where
  used : f.declared ≠ .unused
  used' : f'.declared ≠ .unused
  range : f.inRange = true → f'.inRange = true
  above : thresholdsOk cfg = true → f.inRange = true → (∀ k, f.declared = .fault k → (cfg.paramsOf p).off < f.p) →
    ∀ k, f'.declared = .fault k → (cfg.paramsOf p).off < f'.p

/-- What an event makes of a channel's record: a LAMP record stays one, a LOOP record takes a gate. -/
inductive ChannelStep (cfg : ChannelCfg) : Channel → Channel → Prop
  | same (r : Channel) : ChannelStep cfg r r
  | lamp (r r' : LampRecord) : ChannelStep cfg (.lamp r) (.lamp r')
  | gate (l : LoopCfg) (hcfg : cfg = .loop l) (r : LoopRecord) (count : Nat) (now : Time) :
      ChannelStep cfg (.loop r) (.loop (r.gate l (measuredCount count) now).1)

/-! ## The trunk controller before an event settles -/

/-- What an event makes of the controller before it settles: the pair of states stays legal, a blind receiver takes no frame,
and a slot runs in DEFER alone. -/
structure TrunkStep (t t' : Trunk) : Prop where
  legal : t.legal = true → t'.legal = true
  blind : t.legal = true → (t.blind = true → t.rx = none) → t'.blind = true → t'.rx = none
  slot : t.legal = true → (t.slot.isSome = true → t.access = .defer) → t'.slot.isSome = true → t'.access = .defer

/-! ## Moves of the state -/

/-- The parts of the state that invariants read stay, but for the channels. -/
structure State.SameBlocks (s u : State) : Prop where
  view : u.view = s.view
  queue : u.queue = s.queue
  mode : u.mode = s.mode
  number : u.number = s.number
  cfg : u.cfg = s.cfg
  filters : u.filters = s.filters
  trunk : u.trunk = s.trunk
  level : u.level = s.level
  stack : u.stack = s.stack
  attention : u.attention = s.attention

/-- These stay, and with them what only few commands change: the memory, the clock, the reason for LISTEN, the commands that
wait. -/
structure State.SameCore (s u : State) : Prop extends s.SameBlocks u where
  mem : u.mem = s.mem
  clock : u.clock = s.clock
  listenReason : u.listenReason = s.listenReason
  pending : u.pending = s.pending

theorem State.SameCore.refl (s : State) : s.SameCore s :=
  ⟨⟨rfl, rfl, rfl, rfl, rfl, rfl, rfl, rfl, rfl, rfl⟩, rfl, rfl, rfl, rfl⟩

/-- Every channel's record as an event leaves it. -/
def State.ChannelsStep (s u : State) : Prop := ∀ n, ChannelStep (s.cfg.channel n) (s.channel n) (u.channel n)

/-- One move of the state. -/
inductive State.Move : State → State → Prop
  | county {s : State} {k : County} (h : County.Move s.ctx s.toCounty k) : Move s (s.setCounty k)
  | evidence {s : State} (p : Nat) (f : FilterRecord) (h : FilterStep s.cfg p (s.filter p) f)
      (hd : f.declared = (s.filter p).declared) : Move s (s.setFilter p f)
  | declares {s : State} (p : Nat) (f : FilterRecord) {k : County} (h : FilterStep s.cfg p (s.filter p) f)
      (hk : County.Declares s.ctx p f.declared s.toCounty k) : Move s ((s.setFilter p f).setCounty k)
  | channel {s : State} (n : Nat) (r : Channel) (h : ChannelStep (s.cfg.channel n) (s.channel n) r) :
      Move s (s.setChannel n r)
  | trunk {s : State} (t : Trunk) (h : TrunkStep s.trunk t) : Move s { s with trunk := t }
  | saves {s : State} (e : Entry) (he : e ∈ s.view) (hl : s.level < e.severity) (hn : s.stack.length < stackLimit) :
      Move s { s with stack := s.level :: s.stack, level := e.severity }
  | returns {s : State} (l : Nat) (rest : List Nat) (h : s.stack = l :: rest) : Move s { s with stack := rest, level := l }
  | sets {s : State} (l : Nat) (hl : l ≤ 7) (h : s.stack = []) : Move s { s with level := l }
  | aside {s u : State} (h : s.SameCore u) (hc : s.ChannelsStep u) : Move s u

/-- Any number of moves of the state. -/
abbrev State.Moves : State → State → Prop := Relation.ReflTransGen State.Move

/-! ## Events -/

/-- A state in which every block has been reset, outside RUN (R183, R186, R187). -/
structure State.Blank (t : State) : Prop where
  view : t.view = []
  queue : t.queue = []
  mode : t.mode ≠ .run
  cfg : t.cfg = Settings.listen
  filters : t.filters = State.reset.filters
  channels : t.channels = State.reset.channels
  trunk : t.trunk = { State.reset.trunk with cd := t.trunk.cd }
  level : t.level = 0
  stack : t.stack = []
  attention : t.attention = false

/-- A change of the controller that no settling follows. -/
inductive TrunkAside (s : State) : Trunk → Prop
  | character (f g : RxFrame) (h : s.trunk.rx = some f) : TrunkAside s { s.trunk with rx := some g }
  | slotEnds (hd : s.trunk.access = .defer) (hs : s.trunk.slot.isSome = true) :
      TrunkAside s { s.trunk with count := s.trunk.count - 1, slot := some s.clock }
  | gone (hd : s.trunk.access = .defer) (hq : s.queue = []) :
      TrunkAside s { s.trunk with access := .idle, count := 0, slot := none }
  | sends (hk : s.trunk.access = .keyup) : TrunkAside s { s.trunk with access := .send, since := some s.clock }
  | disabled : TrunkAside s s.trunk.disabled

/-- The station works: in RUN or LISTEN, or with something that stands in the queue or the filter. Elsewhere no event reaches
the view or the queue. -/
def State.Occupied (s : State) : Prop := s.live = true ∨ s.queue ≠ [] ∨ ∃ p, (s.filter p).declared ≠ .unused

/-- One event of a station that neither resets nor starts, or one of those a command is made of. -/
inductive State.Event : State → State → Prop
  | settled {s u : State} (h : s.Moves u) (ho : s.Occupied ∨ u.view = s.view ∧ u.queue = s.queue) : Event s u.settle
  | aside {s t : State} (h : s.SameCore t) (hc : s.ChannelsStep t) : Event s t
  | trunk {s : State} (t : Trunk) (h : TrunkAside s t) : Event s { s with trunk := t }
  | flushed {s : State} {q : QueueSide} (hl : s.live = true) (hd : s.trunk.enable = .disabled)
      (h : QueueMoves s.toQueueSide q) : Event s (s.setCounty { s.toCounty with toQueueSide := q })

/-- Any number of events. -/
abbrev State.Events : State → State → Prop := Relation.ReflTransGen State.Event

/-- An event, or what lies outside the events: a tick of the clock, a command taken from the queue, a memory write ended; a
reset, a start, an image taken. -/
inductive State.Change : State → State → Prop
  | event {s t : State} (h : State.Event s t) : Change s t
  | apart {s t : State} (h : s.SameBlocks t) (hc : s.ChannelsStep t) : Change s t
  | blank {s t : State} (h : t.Blank) : Change s t
  | starts {s u : State} (hm : s.mode = .loading) (hcfg : u.cfg = s.cfg) (hnumber : u.number = s.number) (count : Half)
      (levels : BitVec 8) : Change s (u.enterRun count levels)
  | takesImage {s : State} (hm : s.mode = .loading) : Change s s.takeImage

/-- Any number of changes. -/
abbrev State.Changes : State → State → Prop := Relation.ReflTransGen State.Change

/-! ## Moves composed -/

variable {s : State}

theorem ChannelStep.lamp_or_same {cfg : ChannelCfg} {r r' : Channel} (h : r' = r ∨ ∃ x y, r = .lamp x ∧ r' = .lamp y) :
    ChannelStep cfg r r' := by
  rcases h with rfl | ⟨x, y, rfl, rfl⟩
  · exact .same _
  · exact .lamp x y

theorem State.ChannelsStep.of_eq {s u : State} (h : u.channels = s.channels) : s.ChannelsStep u := by
  intro n
  rw [show u.channel n = s.channel n by simp [State.channel, h]]
  exact .same _

theorem State.Moves.county {k : County} (h : County.Moves s.ctx s.toCounty k) : s.Moves (s.setCounty k) := by
  induction h with
  | refl => exact .refl
  | tail _ hmove ih => exact ih.tail (.county (s := s.setCounty _) hmove)

theorem State.Moves.aside {u : State} (h : s.SameCore u) (hc : u.channels = s.channels) : s.Moves u :=
  .single (.aside h (.of_eq hc))

theorem State.Changes.apart {t : State} (h : s.SameBlocks t) (hc : t.channels = s.channels) : s.Changes t :=
  .single (.apart h (.of_eq hc))

theorem State.Events.changes {t : State} (h : s.Events t) : s.Changes t := by
  induction h with
  | refl => exact .refl
  | tail _ hevent ih => exact ih.tail (.event hevent)

theorem State.Events.aside {t : State} (h : s.SameCore t) (hc : t.channels = s.channels) : s.Events t :=
  .single (.aside h (.of_eq hc))

theorem State.Events.settled {u : State} (h : s.Moves u) (ho : s.Occupied) : s.Events u.settle :=
  .single (.settled h (.inl ho))

theorem State.Events.settled_apart {u : State} (h : s.Moves u) (hv : u.view = s.view) (hq : u.queue = s.queue) :
    s.Events u.settle := .single (.settled h (.inr ⟨hv, hq⟩))

theorem State.Occupied.of_live (h : s.live = true) : s.Occupied := .inl h

theorem State.Occupied.of_run (h : s.mode = .run) : s.Occupied := .of_live (by simp [State.live, h])

theorem State.Occupied.of_filter {p : Nat} (h : (s.filter p).declared ≠ .unused) : s.Occupied := .inr (.inr ⟨p, h⟩)

theorem TrunkStep.of_same {t t' : Trunk} (he : t'.enable = t.enable) (ha : t'.access = t.access) (hs : t'.slot = t.slot)
    (hr : t'.rx = t.rx ∨ t'.rx = none) : TrunkStep t t' where
  legal := by simp [Trunk.legal, he, ha]
  blind := by
    intro _ h hb
    rcases hr with hr | hr
    · rw [hr]
      exact h (by simpa [Trunk.blind, ha] using hb)
    · exact hr
  slot := by
    intro _ h
    rw [hs, ha]
    exact h

/-! ## Samples, INHIBIT and RELEASE (chapter 1) -/

theorem filter_lt_of_used {p : Nat} (h : (s.filter p).declared ≠ .unused) : p < 32 := by
  by_contra hp
  exact h (by simp [State.filter, tget_outside _ _ (show 32 ≤ p by omega)])

theorem thresholdsOk_family {cfg : Settings} (h : thresholdsOk cfg = true) (p : Nat) :
    (cfg.paramsOf p).off < (cfg.paramsOf p).on := by
  simp only [thresholdsOk, decide_eq_true_eq] at h
  obtain ⟨hlamp, hloop, hsign, hinput⟩ := h
  unfold Settings.paramsOf
  cases (cfg.family p).getD .input <;> assumption

theorem FilterRecord.inRange_iff (f : FilterRecord) : f.inRange = true ↔ f.p ≤ 63 ∧ f.r ≤ 15 ∧ f.occurrences ≤ 255 := by
  simp [FilterRecord.inRange]

theorem FilterRecord.raise_inRange {f : FilterRecord} (c : FamilyParams) (k : Kind) (h : f.inRange = true) :
    (f.raise c k).inRange = true := by
  rw [FilterRecord.inRange_iff] at h ⊢
  refine ⟨Nat.min_le_left _ _, ?_, h.2.2⟩
  simp only [FilterRecord.raise]
  split <;> omega

theorem FilterRecord.lower_inRange {f : FilterRecord} (c : FamilyParams) (h : f.inRange = true) :
    (f.lower c).inRange = true := by
  rw [FilterRecord.inRange_iff] at h ⊢
  exact ⟨(Nat.sub_le _ _).trans h.1, Nat.zero_le _, h.2.2⟩

/-- An own change with the entry it stores (R13, R16 to R19). -/
theorem County.ownChange_declares {c : Ctx} {k : County} {p : Nat} {d : Declared} {entry : Stamp → Option Entry → Entry}
    (h : ∀ (k₁ : County) (st : Stamp), (entry st (findEntry k₁.view c.number p)).StoredFor c k₁.view p ∧
      (entry st (findEntry k₁.view c.number p)).Shows d) : County.Declares c p d k (k.ownChange c p entry) :=
  ⟨_, _, County.takeStamp_moves, (h _ _).1, (h _ _).2, County.offerOwn_moves p⟩

theorem freshOwnEntry_stored (c : Ctx) (view : List Entry) {p : Nat} (hp : p < 32) (k : Kind) (state : EntryState)
    (st : Stamp) (occ : Nat) (affected : Option Nat) (old : Option Entry) :
    (freshOwnEntry c p k state st occ affected old).StoredFor c view p :=
  ⟨rfl, rfl, hp, .inl rfl, .inl ⟨k, rfl⟩⟩

/-- A held own entry with other fields than its key, mark and severity changed. -/
theorem Entry.StoredFor.of_held {c : Ctx} {view : List Entry} {p : Nat} (hp : p < 32) {old e : Entry}
    (hold : findEntry view c.number p = some old) (ho : e.origin = old.origin) (hpt : e.point = old.point)
    (hown : e.own = old.own) (hsev : e.severity = old.severity ∨ ∃ k, e.severity = c.cfg.severityOf k) :
    e.StoredFor c view p := by
  obtain ⟨hmem, horigin, hpoint⟩ := findEntry_mem hold
  exact ⟨ho.trans horigin, hpt.trans hpoint, hp, .inr ⟨old, hmem, horigin, hown⟩,
    hsev.symm.imp id fun h => ⟨old, hmem, h⟩⟩

/-- The held own entry, or a fresh one for want of it, with other fields than its key, mark and severity changed. -/
theorem Entry.StoredFor.of_getD {c : Ctx} {view : List Entry} {p : Nat} {fresh e : Entry}
    (hfresh : fresh.StoredFor c view p) (ho : e.origin = ((findEntry view c.number p).getD fresh).origin)
    (hpt : e.point = ((findEntry view c.number p).getD fresh).point)
    (hown : e.own = ((findEntry view c.number p).getD fresh).own)
    (hsev : e.severity = ((findEntry view c.number p).getD fresh).severity) : e.StoredFor c view p := by
  cases hold : findEntry view c.number p with
  | none =>
    rw [hold, Option.getD_none] at ho hpt hown hsev
    exact ⟨ho.trans hfresh.origin, hpt.trans hfresh.point, hfresh.reach, by rw [hown]; exact hfresh.own,
      by rw [hsev]; exact hfresh.severity⟩
  | some old =>
    rw [hold, Option.getD_some] at ho hpt hown hsev
    exact .of_held hfresh.reach hold ho hpt hown (.inl hsev)

theorem clearedOwnEntry_keeps (c : Ctx) (st : Stamp) (affected : Option Nat) (e : Entry) :
    (clearedOwnEntry c st affected e).origin = e.origin ∧ (clearedOwnEntry c st affected e).point = e.point ∧
    (clearedOwnEntry c st affected e).own = e.own ∧ (clearedOwnEntry c st affected e).severity = e.severity := by
  unfold clearedOwnEntry
  dsimp only
  split <;> exact ⟨rfl, rfl, rfl, rfl⟩

theorem State.declareOnset_moves {p : Nat} {k : Kind} {f : FilterRecord} (hp : p < 32)
    (h : FilterStep s.cfg p (s.filter p) { f with declared := .fault k, occurrences := min 255 (f.occurrences + 1) }) :
    s.Moves (s.declareOnset p k f) :=
  .single (.declares p _ h (County.ownChange_declares fun _ _ => ⟨freshOwnEntry_stored _ _ hp .., rfl, rfl⟩))

theorem State.declareKind_moves {p : Nat} {k : Kind} {f : FilterRecord} (hp : p < 32)
    (h : FilterStep s.cfg p (s.filter p) { f with declared := .fault k }) : s.Moves (s.declareKind p k f) := by
  refine .single (.declares p _ h (County.ownChange_declares fun k₁ st => ?_))
  split
  · rename_i e he
    exact ⟨.of_held hp he rfl rfl rfl (.inr ⟨k, rfl⟩), rfl, rfl⟩
  · exact ⟨freshOwnEntry_stored _ _ hp .., rfl, rfl⟩

theorem State.suppliedLamp_channel {i n : Nat} {r : LampRecord} (h : s.suppliedLamp i n = some r) :
    s.channel n = .lamp r := by
  unfold State.suppliedLamp at h
  split at h
  · rename_i hr
    split at h
    · cases h
      exact hr
    · cases h
  · cases h

theorem State.Moves.foldl {α : Type} {f : State → α → State} {l : List α} (h : ∀ x s, State.Moves s (f s x)) (s : State) :
    s.Moves (l.foldl f s) := by
  induction l generalizing s with
  | nil => exact .refl
  | cons x l ih => exact (h x s).trans (ih (f s x))

theorem State.supplyReturned_moves (i : Nat) : s.Moves (s.supplyReturned i) := by
  refine State.Moves.foldl (fun n s => ?_) s
  split
  · rename_i r hr
    refine .single (.channel n _ ?_)
    rw [State.suppliedLamp_channel hr]
    exact .lamp ..
  · exact .refl

theorem State.leftFault_moves (p : Nat) : s.Moves (s.leftFault p) := by
  unfold State.leftFault
  split
  · exact State.supplyReturned_moves _
  · exact .refl

theorem State.declareClear_moves {p : Nat} {k : Kind} {f : FilterRecord} (hp : p < 32)
    (h : FilterStep s.cfg p (s.filter p) { f with declared := .normal }) : s.Moves (s.declareClear p k f) := by
  refine Relation.ReflTransGen.trans (.single (.declares p _ h (County.ownChange_declares fun k₁ st => ⟨?_, trivial⟩)))
    (State.leftFault_moves p)
  obtain ⟨ho, hpt, hown, hsev⟩ := clearedOwnEntry_keeps (s.setFilter p { f with declared := .normal }).ctx st
    ((s.setFilter p { f with declared := .normal }).pointAffected p) ((findEntry k₁.view s.ctx.number p).getD
      (freshOwnEntry (s.setFilter p { f with declared := .normal }).ctx p k .active st f.occurrences none none))
  exact .of_getD (freshOwnEntry_stored _ _ hp ..) ho hpt hown hsev

theorem State.applySample_moves (p : Nat) (cls : SampleClass) : s.Moves (s.applySample p cls) := by
  have hp : (s.filter p).declared ≠ .unused → p < 32 := filter_lt_of_used
  have hon : thresholdsOk s.cfg = true → (s.cfg.paramsOf p).off < (s.cfg.paramsOf p).on := fun h => thresholdsOk_family h p
  simp only [State.applySample]
  split
  · exact .refl
  · exact .refl
  · exact .refl
  · exact .refl
  · rename_i hd
    refine .single (.evidence p _ ⟨by simp [hd], by simp [FilterRecord.lower, hd], FilterRecord.lower_inRange _, ?_⟩ rfl)
    simp [FilterRecord.lower, hd]
  · rename_i k hd
    have hraise := FilterRecord.raise_inRange (f := s.filter p) (s.cfg.paramsOf p) k
    split
    · rename_i hreach
      refine State.declareOnset_moves (hp (by simp [hd])) ⟨by simp [hd], by simp, fun h => ?_, fun ht _ _ _ _ => ?_⟩
      · have := hraise h
        rw [FilterRecord.inRange_iff] at this ⊢
        exact ⟨this.1, this.2.1, Nat.min_le_left _ _⟩
      · exact (hon ht).trans_le hreach
    · refine .single (.evidence p _ ⟨by simp [hd], by simp [FilterRecord.raise, hd], hraise, ?_⟩ rfl)
      simp [FilterRecord.raise, hd]
  · rename_i d hd
    have hlower := FilterRecord.lower_inRange (f := s.filter p) (s.cfg.paramsOf p)
    split
    · refine State.declareClear_moves (hp (by simp [hd])) ⟨by simp [hd], by simp, fun h => ?_, by simp⟩
      have := hlower h
      rw [FilterRecord.inRange_iff] at this ⊢
      exact this
    · rename_i hstays
      exact .single (.evidence p _ ⟨by simp [hd], by simp [FilterRecord.lower, hd], hlower,
        fun _ _ _ _ _ => Nat.lt_of_not_le hstays⟩ rfl)
  · rename_i d k hd
    have hraise := FilterRecord.raise_inRange (f := s.filter p) (s.cfg.paramsOf p) k
    have habove : (s.filter p).inRange = true → (∀ k, (s.filter p).declared = .fault k →
        (s.cfg.paramsOf p).off < (s.filter p).p) →
        (s.cfg.paramsOf p).off < ((s.filter p).raise (s.cfg.paramsOf p) k).p := by
      intro hr h
      have h63 := ((FilterRecord.inRange_iff _).mp hr).1
      exact (h d hd).trans_le (Nat.le_min.mpr ⟨h63, Nat.le_add_right _ _⟩)
    split
    · refine State.declareKind_moves (hp (by simp [hd])) ⟨by simp [hd], by simp, fun h => ?_, fun _ hr h _ _ => habove hr h⟩
      have := hraise h
      rw [FilterRecord.inRange_iff] at this ⊢
      exact this
    · exact .single (.evidence p _ ⟨by simp [hd], by simp [FilterRecord.raise, hd], hraise,
        fun _ hr h _ _ => habove hr h⟩ rfl)

theorem State.inhibitPoint_moves {p : Nat} (k : Option Kind) (hd : (s.filter p).declared ≠ .unused) :
    s.Moves (s.inhibitPoint p (s.filter p) k) := by
  have hdeclared : s.Moves ((s.setFilter p { s.filter p with declared := .inhibited }).declareChange p fun st old =>
      freshOwnEntry (s.setFilter p { s.filter p with declared := .inhibited }).ctx p
        (match k, old with
          | some k, _ => k
          | none, some e => e.kind
          | none, none => (s.setFilter p { s.filter p with declared := .inhibited }).cfg.principalKind p)
        .inhibited st (s.filter p).occurrences
        ((s.setFilter p { s.filter p with declared := .inhibited }).pointAffected p) old) :=
    .single (.declares p _ ⟨hd, by simp, fun h => h, by simp⟩
      (County.ownChange_declares fun _ _ => ⟨freshOwnEntry_stored _ _ (filter_lt_of_used hd) .., rfl⟩))
  simp only [State.inhibitPoint]
  split
  · exact hdeclared.trans (State.leftFault_moves p)
  · exact hdeclared

theorem State.inhibit_events (p : Nat) : s.Events (s.inhibit p).1 := by
  unfold State.inhibit
  split
  · exact .refl
  · split
    · exact .refl
    · split
      · exact .refl
      · exact .refl
      · rename_i hd
        exact .settled (State.inhibitPoint_moves none (by simp [hd])) (.of_filter (p := p) (by simp [hd]))
      · rename_i k hd
        exact .settled (State.inhibitPoint_moves (some k) (by simp [hd])) (.of_filter (p := p) (by simp [hd]))

theorem State.releaseWarmUp_moves (p : Nat) : s.Moves (s.releaseWarmUp p) := by
  unfold State.releaseWarmUp
  split
  · rename_i r hr
    split
    · refine .single (.channel p _ ?_)
      rw [hr]
      exact .lamp ..
    · exact .refl
  · exact .refl
  · exact .refl

theorem State.releasePoint_moves {p : Nat} (hd : (s.filter p).declared = .inhibited) :
    s.Moves (s.releasePoint p (s.filter p)) := by
  have hp : p < 32 := filter_lt_of_used (s := s) (by simp [hd])
  refine Relation.ReflTransGen.trans (.single (.declares p
    { s.filter p with declared := .normal, p := 0, r := 0, l := none } ⟨by simp [hd], by simp, fun h => ?_, by simp⟩
    (County.ownChange_declares fun k₁ st => ⟨?_, trivial⟩))) (State.releaseWarmUp_moves p)
  · rw [FilterRecord.inRange_iff] at h ⊢
    exact ⟨Nat.zero_le _, Nat.zero_le _, h.2.2⟩
  · exact .of_getD (freshOwnEntry_stored _ _ hp ..) rfl rfl rfl rfl

theorem State.release_events (p : Nat) : s.Events (s.release p).1 := by
  unfold State.release
  split
  · exact .refl
  · split
    · exact .refl
    · split
      · exact .refl
      · exact .refl
      · exact .refl
      · rename_i hd
        exact .settled (State.releasePoint_moves hd) (.of_filter (p := p) (by simp [hd]))

end Sys2Proof.Machine

/-! Every command is a run of events: the field side, the county channel, the console, the resets and the memory writes, and so
the step. What every event keeps, every step keeps. -/

namespace Sys2Proof.Machine

variable {s : State}

/-! ## The field side -/

theorem State.SameBlocks.trans {s u v : State} (h : s.SameBlocks u) (h' : u.SameBlocks v) : s.SameBlocks v :=
  ⟨h'.view.trans h.view, h'.queue.trans h.queue, h'.mode.trans h.mode, h'.number.trans h.number, h'.cfg.trans h.cfg,
    h'.filters.trans h.filters, h'.trunk.trans h.trunk, h'.level.trans h.level, h'.stack.trans h.stack,
    h'.attention.trans h.attention⟩

theorem State.SameCore.trans {s u v : State} (h : s.SameCore u) (h' : u.SameCore v) : s.SameCore v :=
  ⟨h.toSameBlocks.trans h'.toSameBlocks, h'.mem.trans h.mem, h'.clock.trans h.clock,
    h'.listenReason.trans h.listenReason, h'.pending.trans h.pending⟩

theorem State.SameCore.of_channels {s u : State} (h : u = { s with channels := u.channels }) : s.SameCore u := by
  rw [h]
  exact ⟨⟨rfl, rfl, rfl, rfl, rfl, rfl, rfl, rfl, rfl, rfl⟩, rfl, rfl, rfl, rfl⟩

theorem State.SameCore.of_inputs {s u : State} (h : u = { s with inputs := u.inputs }) : s.SameCore u := by
  rw [h]
  exact ⟨⟨rfl, rfl, rfl, rfl, rfl, rfl, rfl, rfl, rfl, rfl⟩, rfl, rfl, rfl, rfl⟩

theorem State.lampTick_events (c current : Nat) (hm : s.mode = .run) : s.Events (s.lampTick c current) := by
  unfold State.lampTick
  split
  · rename_i cfg r hcfg hr
    have hchannel : s.Moves (s.setChannel c (.lamp (r.tick cfg (s.supplyLost cfg) (measuredCurrent current) s.now).1)) := by
      refine .single (.channel c _ ?_)
      rw [hr]
      exact .lamp ..
    exact .settled (hchannel.trans (State.applySample_moves _ _)) (.of_run hm)
  · exact .refl

theorem State.loopGate_events (c count : Nat) (hm : s.mode = .run) : s.Events (s.loopGate c count) := by
  unfold State.loopGate
  split
  · rename_i cfg r hcfg hr
    have hchannel : s.Moves (s.setChannel c (.loop (r.gate cfg (measuredCount count) s.now).1)) := by
      refine .single (.channel c _ ?_)
      rw [hr]
      exact .gate cfg hcfg r count s.now
    exact .settled (hchannel.trans (State.applySample_moves _ _)) (.of_run hm)
  · exact .refl

/-- Every input sampled: the input records alone change. -/
theorem State.sampleInputs_eq (s : State) (levels : BitVec 8) :
    s.sampleInputs levels = { s with inputs := (s.sampleInputs levels).inputs } := by
  have hfold : ∀ (l : List Nat) (u : State), (u = { s with inputs := u.inputs }) →
      (l.foldl (fun s i => s.setInput i ((s.input i).sample (s.cfg.inputAt i).filter (levels.getLsbD i))) u) =
        { s with inputs := (l.foldl (fun s i =>
          s.setInput i ((s.input i).sample (s.cfg.inputAt i).filter (levels.getLsbD i))) u).inputs } := by
    intro l
    induction l with
    | nil => exact fun u hu => hu
    | cons i l ih =>
      intro u hu
      exact ih _ (by rw [hu]; rfl)
  exact hfold _ s rfl

/-- A demand edge: at most its channel's LAMP record changes. -/
theorem State.demandEdge_cases (before s : State) (c : Nat) :
    State.demandEdge before s c = s ∨
    ∃ r r', s.channel c = .lamp r ∧ State.demandEdge before s c = s.setChannel c (.lamp r') := by
  unfold State.demandEdge
  split
  · rename_i cfg r hcfg hr
    split
    · exact .inl rfl
    · split
      · exact .inl rfl
      · exact .inr ⟨r, _, hr, rfl⟩
  · exact .inl rfl

theorem State.channel_setChannel (s : State) (c n : Nat) (r : Channel) :
    (s.setChannel c r).channel n = if c = n ∧ c < 16 then r else s.channel n := by
  unfold State.channel
  by_cases hc : c < 16
  · by_cases hn : c = n
    · subst hn
      simp [tget_tset_self _ _ _ hc, hc]
    · simp [tget_tset_ne _ _ _ hn, hn]
  · simp [tset_outside _ _ (show 16 ≤ c by omega), hc]

/-- A fold of demand edges changes channels alone, each at most from a LAMP record to another. -/
theorem State.demandEdges_spec (before : State) : ∀ (l : List Nat) (s : State),
    l.foldl (State.demandEdge before) s = { s with channels := (l.foldl (State.demandEdge before) s).channels } ∧
    ∀ n, (l.foldl (State.demandEdge before) s).channel n = s.channel n ∨
      ∃ r r', s.channel n = .lamp r ∧ (l.foldl (State.demandEdge before) s).channel n = .lamp r'
  | [], s => ⟨rfl, fun _ => .inl rfl⟩
  | c :: l, s => by
    obtain ⟨heq, hchannels⟩ := State.demandEdges_spec before l (State.demandEdge before s c)
    rw [List.foldl_cons]
    rcases State.demandEdge_cases before s c with h | ⟨r, r', hr, h⟩
    · rw [h] at heq hchannels ⊢
      exact ⟨heq, hchannels⟩
    · rw [h] at heq hchannels ⊢
      refine ⟨heq, fun n => ?_⟩
      have hn := hchannels n
      rw [State.channel_setChannel] at hn
      split at hn
      · rename_i hcn
        rcases hn with hn | ⟨x, x', -, hn⟩
        · exact .inr ⟨r, r', hcn.1 ▸ hr, hn⟩
        · exact .inr ⟨r, x', hcn.1 ▸ hr, hn⟩
      · exact hn

theorem State.channels_of_inputs {s u : State} (h : u = { s with inputs := u.inputs }) : u.channels = s.channels := by
  rw [h]

theorem State.sampleInstant_events (levels : BitVec 8) : s.Events (s.sampleInstant levels) := by
  obtain ⟨heq, hchannels⟩ := State.demandEdges_spec s channelNumbers (s.sampleInputs levels)
  have hsampled := s.sampleInputs_eq levels
  refine .single (.aside (State.SameCore.trans (.of_inputs hsampled) (.of_channels heq)) fun n => ?_)
  have hn := hchannels n
  rw [show (s.sampleInputs levels).channel n = s.channel n by
    rw [State.channel, State.channels_of_inputs hsampled, State.channel]] at hn
  exact ChannelStep.lamp_or_same hn

theorem State.setSignRecord_sameCore (s : State) (a : Nat) (r : SignRecord) :
    s.SameCore (s.setSignRecord a r) ∧ (s.setSignRecord a r).channels = s.channels := by
  unfold State.setSignRecord
  split
  · exact ⟨⟨⟨rfl, rfl, rfl, rfl, rfl, rfl, rfl, rfl, rfl, rfl⟩, rfl, rfl, rfl, rfl⟩, rfl⟩
  · exact ⟨.refl s, rfl⟩

theorem State.countOutcome_sameCore (s : State) (o : SignOutcome) :
    s.SameCore (s.countOutcome o) ∧ (s.countOutcome o).channels = s.channels := by
  cases o <;> exact ⟨⟨⟨rfl, rfl, rfl, rfl, rfl, rfl, rfl, rfl, rfl, rfl⟩, rfl, rfl, rfl, rfl⟩, rfl⟩

/-- A sample for an UNUSED point has no effect (R4). -/
theorem State.applySample_unused {p : Nat} (cls : SampleClass) (h : (s.filter p).declared = .unused) :
    s.applySample p cls = s := by simp [State.applySample, h]

/-- A sample delivered once other parts of the state have changed. -/
theorem State.Events.sampled {u : State} (h : s.SameCore u) (hc : u.channels = s.channels) (p : Nat) (cls : SampleClass) :
    s.Events (u.applySample p cls).settle := by
  have hfilter : u.filter p = s.filter p := by simp [State.filter, h.filters]
  by_cases hd : (u.filter p).declared = .unused
  · rw [State.applySample_unused cls hd]
    exact .settled_apart (.aside h hc) h.view h.queue
  · exact .settled ((State.Moves.aside h hc).trans (State.applySample_moves p cls)) (.of_filter (p := p) (hfilter ▸ hd))

/-- The ended transaction recorded and counted, the guard begun and the sample delivered (R66 to R68). -/
theorem State.transactionSampled_events (a : Nat) (r : SignRecord) (o : SignOutcome) (c : Slc) (p : Nat) (cls : SampleClass) :
    s.Events (State.applySample { (s.setSignRecord a r).countOutcome o with slc := c } p cls).settle := by
  have hcounted := State.countOutcome_sameCore (s.setSignRecord a r) o
  have hcore : s.SameCore ((s.setSignRecord a r).countOutcome o) := (s.setSignRecord_sameCore a r).1.trans hcounted.1
  have hguard : ((s.setSignRecord a r).countOutcome o).SameCore { (s.setSignRecord a r).countOutcome o with slc := c } :=
    ⟨⟨rfl, rfl, rfl, rfl, rfl, rfl, rfl, rfl, rfl, rfl⟩, rfl, rfl, rfl, rfl⟩
  exact .sampled (hcore.trans hguard) (hcounted.2.trans (s.setSignRecord_sameCore a r).2) p cls

theorem State.endTransaction_events : s.Events s.endTransaction := State.transactionSampled_events ..

/-- The sign controller's record alone. -/
theorem State.slc_events (c : Slc) : s.Events { s with slc := c } :=
  .aside ⟨⟨rfl, rfl, rfl, rfl, rfl, rfl, rfl, rfl, rfl, rfl⟩, rfl, rfl, rfl, rfl⟩ rfl

/-- A neutral sample has no effect (R4). -/
theorem State.applySample_neutral (s : State) (p : Nat) : s.applySample p .neutral = s := by
  cases hd : (s.filter p).declared <;> simp [State.applySample, hd]

theorem State.signStop_events : s.Events s.signStop := by
  have habandon : s.Events s.abandonTransaction := by
    simp only [State.abandonTransaction, State.applySample_neutral]
    exact .aside (s.setSignRecord_sameCore _ _).1 (s.setSignRecord_sameCore _ _).2
  unfold State.signStop
  split
  · exact .refl
  · exact State.slc_events _
  · exact State.slc_events _
  · exact habandon.trans (State.slc_events _)
  · exact habandon.trans (State.slc_events _)

theorem State.signStart_events : s.Events s.signStart.1 := by
  unfold State.signStart
  split
  · exact .refl
  · split
    · exact .refl
    · exact State.slc_events _

/-! ## The county channel -/

/-- The receiver's frame alone, where it stands or goes. -/
theorem State.rx_none_moves : s.Moves { s with trunk := { s.trunk with rx := none } } :=
  .single (.trunk _ (.of_same rfl rfl rfl (.inr rfl)))

theorem State.count_moves (i : CounterId) (n : Nat) : s.Moves (s.count i n) :=
  .county (County.count_moves i n)

theorem State.abandonFrame_moves (i : CounterId) : s.Moves (s.abandonFrame i) :=
  State.rx_none_moves.trans (State.count_moves i 1)

theorem State.endFrame_moves (n : Nat) (chars : List Byte) : s.Moves (s.endFrame n chars) := by
  simp only [State.endFrame]
  split
  · split
    · exact State.abandonFrame_moves _
    · rename_i b hb
      exact State.rx_none_moves.trans (State.Moves.county (County.hearBulletin_moves _ (parseBulletin_heard hb).2.2))
  · exact State.abandonFrame_moves _

theorem State.trunkChar_events (v : Byte) (framing : Bool) : s.Events (s.trunkChar v framing) := by
  unfold State.trunkChar
  split
  · exact .refl
  · rename_i hsees
    obtain ⟨hdead, hblind⟩ := not_or.mp hsees
    have hlive : s.live = true := by simpa using hdead
    split
    · split
      · refine .settled (.single (.trunk _ ⟨fun h => h, fun _ _ h => absurd h hblind, fun _ h => h⟩)) (.of_live hlive)
      · exact .refl
    · rename_i f hf
      split
      · exact .settled (State.abandonFrame_moves _) (.of_live hlive)
      · split
        · split
          · exact .single (.trunk _ (.character f _ hf))
          · exact .settled (State.abandonFrame_moves _) (.of_live hlive)
        · dsimp only
          split
          · exact .settled (State.endFrame_moves _ _) (.of_live hlive)
          · exact .single (.trunk _ (.character f _ hf))

theorem State.cd_moves (b : Bool) : s.Moves { s with trunk := { s.trunk with cd := b } } :=
  .single (.trunk _ (.of_same rfl rfl rfl (.inl rfl)))

theorem State.keyUp_moves (hd : s.trunk.access = .defer) : s.Moves s.keyUp := by
  have hcounty : s.Moves (s.setCounty (s.toCounty.takeItems s.ctx s.nextSeq bulletinItems 0 []).1) :=
    .county (County.takeItems_moves _ _ _ _ _)
  refine hcounty.tail (.trunk (s := s.setCounty _) _ ⟨fun h => ?_, fun _ _ _ => rfl, fun _ _ h => by cases h⟩)
  have henabled : s.trunk.enable = .enabled := by
    cases he : s.trunk.enable <;> simp_all [Trunk.legal]
  split <;> simp [Trunk.legal, henabled]

theorem State.slotExpiry_events {t : State} (h : execSlotExpiry s = .next t) : s.Events t := by
  unfold execSlotExpiry at h
  split at h
  · rename_i hslot
    split at h
    · cases h
      exact .single (.trunk _ (.slotEnds hslot.1 hslot.2))
    · split at h
      · rename_i hempty
        cases h
        exact .single (.trunk _ (.gone hslot.1 (List.isEmpty_iff.mp hempty)))
      · rename_i hitems
        cases h
        exact .settled (State.keyUp_moves hslot.1) (.inr (.inl (by simpa using hitems)))
  · cases h
    exact .refl

theorem State.sendComplete_events {t : State} (h : execSendComplete s = .next t) : s.Events t := by
  unfold execSendComplete at h
  split at h
  · rename_i hsend
    cases h
    refine .settled_apart (Relation.ReflTransGen.trans (.single (.trunk _ ?_)) (State.count_moves _ _)) rfl rfl
    split
    · rename_i he
      exact ⟨fun _ => by simp [Trunk.legal, show s.trunk.enable = _ from he], fun _ _ h => by simp [Trunk.blind] at h,
        fun _ h hs => by simp [hsend] at h; simp [h] at hs⟩
    · exact ⟨fun _ => by simp [Trunk.legal], fun _ _ h => by simp [Trunk.blind] at h,
        fun _ h hs => by simp [hsend] at h; simp [h] at hs⟩
  · cases h
    exact .refl

/-! ## Requests -/

theorem State.localAck_moves (e : Entry) (operator : Byte) : s.Moves (s.localAck e operator) :=
  .county (County.localAck_moves e operator)

theorem State.serveAcknowledge_events (hlive : s.live = true) (o p : Nat) (st : Stamp) (operator : Byte) :
    s.Events (s.serveAcknowledge o p st operator).1 := by
  unfold State.serveAcknowledge
  split
  · exact .refl
  · split
    · exact .refl
    · split
      · exact .refl
      · split
        · exact .refl
        · exact .settled (State.localAck_moves _ operator) (.of_live hlive)

theorem State.candidate_spec {e : Entry} (h : s.candidate = some e) : e ∈ s.view ∧ s.level < e.severity := by
  have hcalls := List.find?_some h
  simp only [Entry.calls, Bool.and_eq_true, decide_eq_true_eq] at hcalls
  exact ⟨(mem_dispatchOrder.mp (List.mem_of_find?_eq_some h)).1, hcalls.2⟩

theorem State.serveTake_events (hlive : s.live = true) (operator : Byte) : s.Events (s.serveTake operator).1 := by
  unfold State.serveTake
  split
  · exact .refl
  · split
    · exact .refl
    · rename_i e he
      split
      · exact .refl
      · rename_i hroom
        obtain ⟨hmem, hlevel⟩ := State.candidate_spec he
        have hsaved : s.Moves { s with stack := s.level :: s.stack, level := e.severity } :=
          .single (.saves e hmem hlevel (Nat.lt_of_not_le hroom))
        exact .settled (hsaved.trans (State.localAck_moves e operator)) (.of_live hlive)

theorem State.serveTrunkEnable_events : s.Events s.serveTrunkEnable.1 := by
  unfold State.serveTrunkEnable
  split
  · exact .refl
  · split
    · exact .refl
    · exact .refl
    · rename_i he
      refine .settled_apart (.single (.trunk _ ⟨fun _ => rfl, fun _ _ h => by simp [Trunk.blind] at h,
        fun hlegal h hs => ?_⟩)) rfl rfl
      have := h hs
      simp [Trunk.legal, he, this] at hlegal

theorem State.serve_events (hlive : s.live = true) (r : Request) : s.Events (s.serve r).1 := by
  have haside : ∀ {u : State}, s.SameCore u → u.channels = s.channels → s.Events u := fun h hc => .aside h hc
  cases r with
  | status => exact .refl
  | readTop n => exact .refl
  | readNext o p =>
    simp only [State.serve, State.serveReadNext]
    split <;> exact .refl
  | readEntry o p =>
    simp only [State.serve, State.serveReadEntry]
    split <;> exact .refl
  | acknowledge o p st ch op => exact State.serveAcknowledge_events hlive _ _ _ _
  | take op => exact State.serveTake_events hlive op
  | finish =>
    simp only [State.serve, State.serveFinish]
    split
    · exact .refl
    · rename_i l rest h
      exact .settled_apart (.single (.returns l rest h)) rfl rfl
  | setLevel n =>
    simp only [State.serve, State.serveSetLevel]
    split
    · exact .refl
    · rename_i h
      exact .settled_apart (.single (.sets _ (Nat.min_le_left _ _) h)) rfl rfl
  | readPoint p =>
    simp only [State.serve, State.serveReadPoint]
    split <;> exact .refl
  | inhibit p => exact State.inhibit_events _
  | release p => exact State.release_events _
  | readRoll st => exact .refl
  | readCounters c =>
    simp only [State.serve, State.serveReadCounters]
    split
    · exact .refl
    · exact haside ⟨⟨rfl, rfl, rfl, rfl, rfl, rfl, rfl, rfl, rfl, rfl⟩, rfl, rfl, rfl, rfl⟩ rfl
  | trunkEnable => exact State.serveTrunkEnable_events
  | trunkDisable => exact .single (.trunk _ .disabled)
  | trunkFlush =>
    simp only [State.serve, State.serveTrunkFlush]
    split
    · rename_i hd
      exact .single (.flushed hlive hd (flushQueue_moves _))
    · exact .refl
  | signStop => exact State.signStop_events
  | signStart => exact State.signStart_events
  | writeConfig off bs =>
    simp only [State.serve, State.serveWriteConfig]
    split
    · exact .refl
    · split <;> exact haside ⟨⟨rfl, rfl, rfl, rfl, rfl, rfl, rfl, rfl, rfl, rfl⟩, rfl, rfl, rfl, rfl⟩ rfl
  | restart => exact haside ⟨⟨rfl, rfl, rfl, rfl, rfl, rfl, rfl, rfl, rfl, rfl⟩, rfl, rfl, rfl, rfl⟩ rfl

/-- The Console Port's own record alone. -/
theorem State.cp_events (c : Console) : s.Events { s with cp := c } :=
  .aside ⟨⟨rfl, rfl, rfl, rfl, rfl, rfl, rfl, rfl, rfl, rfl⟩, rfl, rfl, rfl, rfl⟩ rfl

theorem State.takeRequest_events (hlive : s.live = true) (r : Request) : s.Events (s.takeRequest r) := by
  have hserved : s.Events (State.serve { s with cp := ⟨.replying, [], none, none⟩ } r).1 :=
    (State.cp_events _).trans (State.serve_events (s := { s with cp := ⟨.replying, [], none, none⟩ }) hlive r)
  simp only [State.takeRequest]
  split
  · exact hserved
  · exact hserved.trans (State.cp_events _)

theorem State.completeRequest_events (hlive : s.live = true) (bytes : List Byte) : s.Events (s.completeRequest bytes) := by
  unfold State.completeRequest
  split
  · split
    · exact State.cp_events _
    · split
      · exact State.cp_events _
      · exact State.takeRequest_events hlive _
  · exact .refl
  · exact .refl

theorem State.consoleByte_events (v : Byte) (framing : Bool) : s.Events (s.consoleByte v framing) := by
  unfold State.consoleByte
  split
  · rename_i hlive
    split
    · split
      · exact State.cp_events _
      · exact .refl
    · split
      · exact State.cp_events _
      · split
        · split
          · exact State.cp_events _
          · exact State.cp_events _
        · dsimp only
          split
          · exact State.completeRequest_events hlive _
          · exact State.cp_events _
    · exact .aside ⟨⟨rfl, rfl, rfl, rfl, rfl, rfl, rfl, rfl, rfl, rfl⟩, rfl, rfl, rfl, rfl⟩ rfl
  · exact .refl

theorem State.receive_events (r : Request) : s.Events (s.receive r) := by
  have hbytes : ∀ (l : List Byte) (s : State), s.Events (l.foldl (fun s b => s.consoleByte b false) s) := by
    intro l
    induction l with
    | nil => exact fun _ => .refl
    | cons b l ih => exact fun s => (State.consoleByte_events b false).trans (ih _)
  unfold State.receive
  split
  · rename_i h
    exact State.takeRequest_events h.1 r
  · exact hbytes _ s

/-! ## Resets, starts and memory writes -/

theorem State.cleared_blank (s : State) {m : StationMode} (hm : m ≠ .run) (op : Option MemOp) : (s.cleared m op).Blank :=
  ⟨rfl, rfl, hm, rfl, rfl, rfl, rfl, rfl, rfl, rfl⟩

theorem State.powerOn_blank (s : State) : s.powerOn.Blank :=
  ⟨rfl, rfl, by simp [State.powerOn], rfl, rfl, rfl, rfl, rfl, rfl, rfl⟩

theorem State.enterListen_blank (s : State) (reason : ListenReason) : (s.enterListen reason).Blank :=
  ⟨rfl, rfl, by simp [State.enterListen], rfl, rfl, rfl, rfl, rfl, rfl, rfl⟩

theorem State.memoryAfter_eq (s : State) (acked : Bool) (x : Nat) (bs : List Byte) :
    s.memoryAfter acked x bs = { s with mem := (s.memoryAfter acked x bs).mem, free := (s.memoryAfter acked x bs).free } := by
  unfold State.memoryAfter
  split <;> rfl

theorem State.nextOperation_eq (s : State) :
    s.nextOperation = { s with loader := s.nextOperation.loader, free := s.nextOperation.free } := by
  simp only [State.nextOperation]
  split
  · rfl
  · split
    · rfl
    · rfl
    · rfl
    · split <;> rfl

theorem State.nextOperation_events : s.Events s.nextOperation := by
  rw [State.nextOperation_eq]
  exact .aside ⟨⟨rfl, rfl, rfl, rfl, rfl, rfl, rfl, rfl, rfl, rfl⟩, rfl, rfl, rfl, rfl⟩ rfl

/-- LOADING ends in RUN, whatever the memory holds (R186). -/
theorem State.Changes.starts {u : State} (hm : s.mode = .loading) (hcfg : u.cfg = s.cfg) (hnumber : u.number = s.number)
    (count : Half) (levels : BitVec 8) : s.Changes (u.enterRun count levels) :=
  .single (.starts hm hcfg hnumber count levels)

/-- A memory write ended outside LOADING: the memory, its marks and the reply alone change, then the next operation begins. -/
theorem State.writeEnded_changes (m : List Host.Cell) (free : Nat) (fail : Bool) (c : Console) :
    s.Changes (State.nextOperation { s with mem := m, free := free, startWriteFail := fail, cp := c }) := by
  have hwritten : s.Changes { s with mem := m, free := free, startWriteFail := fail, cp := c } :=
    .apart ⟨rfl, rfl, rfl, rfl, rfl, rfl, rfl, rfl, rfl, rfl⟩ rfl
  exact hwritten.trans (State.Events.changes State.nextOperation_events)

theorem State.startWriteEnds_changes (count : Half) (acked : Bool) (levels : BitVec 8) :
    s.Changes (s.startWriteEnds count acked levels) := by
  have hmem := s.memoryAfter_eq acked 504 (startRecord count)
  have hcfg : (s.memoryAfter acked 504 (startRecord count)).cfg = s.cfg := by rw [hmem]
  have hnumber : (s.memoryAfter acked 504 (startRecord count)).number = s.number := by rw [hmem]
  simp only [State.startWriteEnds]
  split
  · rename_i hm
    have hloading : s.mode = .loading := by rw [← hm, hmem]
    exact State.Changes.starts (u := { s.memoryAfter acked 504 (startRecord count) with startWriteFail := !acked }) hloading
      hcfg hnumber count levels
  · rw [hmem]
    exact State.writeEnded_changes _ _ _ _

theorem State.configWriteEnds_changes (w : ConfigWrite) (acked : Bool) : s.Changes (s.configWriteEnds w acked) := by
  have hmem := s.memoryAfter_eq acked w.offset w.bytes
  simp only [State.configWriteEnds]
  rw [hmem]
  exact State.writeEnded_changes _ _ _ _

/-! ## Every command, every step -/

/-- The commands that may reset or start the station, or end a memory write. -/
def Instr.Shifts (i : Instr) : Prop :=
  i = .powerOnReset ∨ (∃ a, i = .imageReadDone a) ∨ (∃ a l, i = .startRecordWriteDone a l) ∨ (∃ l, i = .memoryPollTimeout l) ∨
    i = .restartTakesEffect ∨ (∃ a, i = .configWriteDone a) ∨ i = .resetPinRelease

/-- What any other command answers is reached by events. -/
theorem exec_events {i : Instr} (hi : ¬ Instr.Shifts i) {t : State} (h : exec i s = .next t) : s.Events t := by
  have hnext : ∀ {u : State}, Host.Outcome.next u = Host.Outcome.next (φ := Fault) (ρ := Refusal) t → u = t :=
    fun h => Host.Outcome.next.inj h
  have hreceive : ∀ r : Request, Host.Outcome.next (φ := Fault) (ρ := Refusal) (s.receive r) = .next t → s.Events t :=
    fun r h => hnext h ▸ State.receive_events r
  have hif : ∀ {p : Prop} [Decidable p] {u : State}, (p → s.Events u) → s.Events (if p then u else s) := by
    intro p _ u hu
    split
    · rename_i hp
      exact hu hp
    · exact .refl
  cases i with
  | powerOnReset => exact absurd (by simp [Instr.Shifts]) hi
  | imageReadDone a => exact absurd (by simp [Instr.Shifts]) hi
  | startRecordWriteDone a l => exact absurd (by simp [Instr.Shifts]) hi
  | memoryPollTimeout l => exact absurd (by simp [Instr.Shifts]) hi
  | restartTakesEffect => exact absurd (by simp [Instr.Shifts]) hi
  | lampSenseTick c n => exact hnext h ▸ hif (State.lampTick_events _ _)
  | inputPointSample n =>
    simp only [exec, execInputPointSample] at h
    split at h
    · rename_i hm
      split at h
      · exact hnext h ▸ .settled (State.applySample_moves _ _) (.of_run hm)
      · exact hnext h ▸ .settled (State.applySample_moves _ _) (.of_run hm)
      · exact hnext h ▸ .settled (State.applySample_moves _ _) (.of_run hm)
      · exact hnext h ▸ .refl
      · exact hnext h ▸ .refl
    · exact hnext h ▸ .refl
  | inputSampleInstant l => exact hnext h ▸ hif (fun _ => State.sampleInstant_events l)
  | gateCompletion c n => exact hnext h ▸ hif (State.loopGate_events _ _)
  | pollCycleDue =>
    simp only [exec, execPollCycleDue] at h
    split at h
    · exact hnext h ▸ .refl
    all_goals exact hnext h ▸ State.slc_events _
  | signRequestEnd =>
    simp only [exec, execSignRequestEnd] at h
    split at h
    · exact hnext h ▸ State.slc_events _
    · exact hnext h ▸ .refl
  | signCharacterReceived v m f =>
    simp only [exec, execSignCharacterReceived] at h
    split at h
    · have hstored := State.slc_events (s := s) { s.slc with buffer := s.slc.buffer ++ [⟨v, m, f⟩] }
      rw [← hnext h]
      split
      · exact hstored.trans State.endTransaction_events
      · exact hstored
    · exact hnext h ▸ .refl
  | replyTimeoutExpiry =>
    simp only [exec, execReplyTimeoutExpiry] at h
    split at h
    · exact hnext h ▸ State.endTransaction_events
    · exact hnext h ▸ .refl
  | guardExpiry =>
    simp only [exec, execGuardExpiry] at h
    split at h
    · exact hnext h ▸ State.slc_events _
    · exact hnext h ▸ .refl
  | trunkCharacterReceived v f => exact hnext h ▸ State.trunkChar_events v f
  | cdActive => exact hnext h ▸ .settled_apart (State.cd_moves true) rfl rfl
  | cdInactive =>
    simp only [exec, execCdInactive] at h
    split at h
    · rw [← hnext h]
      split
      · exact .settled_apart ((State.cd_moves false).trans (State.abandonFrame_moves _)) rfl rfl
      · exact .settled_apart (State.cd_moves false) rfl rfl
    · exact hnext h ▸ .refl
  | slotExpiry => exact State.slotExpiry_events h
  | keyupDelayExpiry =>
    simp only [exec, execKeyupDelayExpiry] at h
    split at h
    · rename_i hk
      exact hnext h ▸ .single (.trunk _ (.sends hk))
    · exact hnext h ▸ .refl
  | sendComplete => exact State.sendComplete_events h
  | minuteScan => exact hnext h ▸ hif fun hc => .settled (.county County.scanView_moves) (.of_live hc)
  | silenceCheck => exact hnext h ▸ hif fun hc => .settled (.county County.checkAllSilence_moves) (.of_live hc)
  | presenceTime => exact hnext h ▸ hif fun hc => .settled (.county County.offerAlive_moves) (.of_run hc)
  | refresh => exact hnext h ▸ hif fun hc => .settled (.county County.refreshOwn_moves) (.of_run hc)
  | consoleByteReceived v f => exact hnext h ▸ State.consoleByte_events v f
  | gapTimeExpiry => exact hnext h ▸ hif (fun _ => State.cp_events _)
  | replyEnd =>
    simp only [exec, execReplyEnd] at h
    split at h
    · split at h
      · exact hnext h ▸ .aside ⟨⟨rfl, rfl, rfl, rfl, rfl, rfl, rfl, rfl, rfl, rfl⟩, rfl, rfl, rfl, rfl⟩ rfl
      · exact hnext h ▸ State.cp_events _
    · exact hnext h ▸ .refl
  | configWriteDone a => exact absurd (by simp [Instr.Shifts]) hi
  | resetPinRelease => exact absurd (by simp [Instr.Shifts]) hi
  | status => exact hreceive _ h
  | readTop n => exact hreceive _ h
  | readNext o p => exact hreceive _ h
  | readEntry o p => exact hreceive _ h
  | acknowledge o p st ch op => exact hreceive _ h
  | take op => exact hreceive _ h
  | finish => exact hreceive _ h
  | setLevel n => exact hreceive _ h
  | readPoint p => exact hreceive _ h
  | inhibit p => exact hreceive _ h
  | release p => exact hreceive _ h
  | readRoll st => exact hreceive _ h
  | readCounters c => exact hreceive _ h
  | trunkEnable => exact hreceive _ h
  | trunkDisable => exact hreceive _ h
  | trunkFlush => exact hreceive _ h
  | signStop => exact hreceive _ h
  | signStart => exact hreceive _ h
  | writeConfig off bs => exact hreceive _ h
  | restart => exact hreceive _ h

/-- What any command answers is reached by changes. -/
theorem exec_changes (i : Instr) {t : State} (h : exec i s = .next t) : s.Changes t := by
  have hnext : ∀ {u : State}, Host.Outcome.next u = Host.Outcome.next (φ := Fault) (ρ := Refusal) t → u = t :=
    fun h => Host.Outcome.next.inj h
  by_cases hi : Instr.Shifts i
  · rcases hi with rfl | ⟨a, rfl⟩ | ⟨a, l, rfl⟩ | ⟨l, rfl⟩ | rfl | ⟨a, rfl⟩ | rfl
    · exact hnext h ▸ .single (.blank s.powerOn_blank)
    · simp only [exec, execImageReadDone] at h
      split at h
      · rename_i hm
        split at h
        · split at h
          · exact hnext h ▸ .single (.blank (s.enterListen_blank _))
          · exact hnext h ▸ .single (.takesImage hm.1)
        · exact hnext h ▸ .single (.blank (s.enterListen_blank _))
      · exact hnext h ▸ .refl
    · simp only [exec, execStartRecordWriteDone] at h
      split at h
      · exact hnext h ▸ State.startWriteEnds_changes ..
      all_goals exact hnext h ▸ .refl
    · simp only [exec, execMemoryPollTimeout] at h
      split at h
      · exact hnext h ▸ State.startWriteEnds_changes ..
      · exact hnext h ▸ State.configWriteEnds_changes ..
      all_goals exact hnext h ▸ .refl
    · simp only [exec, execRestartTakesEffect] at h
      split at h
      · exact hnext h ▸ .refl
      · exact hnext h ▸ .refl
      · exact hnext h ▸ .refl
      · exact hnext h ▸ .single (.blank (s.cleared_blank (by simp) _))
      · exact hnext h ▸ .single (.blank (s.cleared_blank (by simp) _))
    · simp only [exec, execConfigWriteDone] at h
      split at h
      · exact hnext h ▸ State.configWriteEnds_changes ..
      all_goals exact hnext h ▸ .refl
    · rw [← hnext h]
      split
      · exact .single (.blank (s.cleared_blank (by simp) _))
      · exact .refl
  · exact (exec_events hi h).changes

/-- A step is reached by changes. -/
theorem step_changes {t : State} (h : step s = .next t) : s.Changes t := by
  unfold step at h
  split at h
  · rw [← Host.Outcome.next.inj h, State.idle]
    split
    · exact .apart ⟨rfl, rfl, rfl, rfl, rfl, rfl, rfl, rfl, rfl, rfl⟩ rfl
    · exact .refl
  · rename_i rest hpending
    have htaken : s.Changes { s with pending := rest } :=
      .apart ⟨rfl, rfl, rfl, rfl, rfl, rfl, rfl, rfl, rfl, rfl⟩ rfl
    exact htaken.trans (exec_changes _ h)

/-- An invariant that every change keeps is kept by a run of changes. -/
theorem State.Changes.keeps {P : State → Prop} (hchange : ∀ s t, State.Change s t → P s → P t) {s t : State}
    (h : s.Changes t) (hs : P s) : P t := by
  induction h with
  | refl => exact hs
  | tail _ hlast ih => exact hchange _ _ hlast ih

/-- So it is kept by every step. -/
theorem step_keeps {P : State → Prop} (hchange : ∀ s t, State.Change s t → P s → P t) {s t : State} (hs : P s)
    (h : step s = .next t) : P t := (step_changes h).keeps hchange hs

/-- An invariant that every event keeps is kept by a run of events. -/
theorem State.Events.keeps {P : State → Prop} (hevent : ∀ s t, State.Event s t → P s → P t) {s t : State} (h : s.Events t)
    (hs : P s) : P t := by
  induction h with
  | refl => exact hs
  | tail _ hlast ih => exact hevent _ _ hlast ih

/-- An invariant that every move keeps is kept by a run of moves. -/
theorem State.Moves.keeps {P : State → Prop} (hmove : ∀ s u, State.Move s u → P s → P u) {s u : State} (h : s.Moves u)
    (hs : P s) : P u := by
  induction h with
  | refl => exact hs
  | tail _ hlast ih => exact hmove _ _ hlast ih

/-- The same for the county side. -/
theorem County.Moves.keeps {c : Ctx} {P : County → Prop} (hmove : ∀ k k', County.Move c k k' → P k → P k') {k k' : County}
    (h : County.Moves c k k') (hk : P k) : P k' := by
  induction h with
  | refl => exact hk
  | tail _ hlast ih => exact hmove _ _ hlast ih

end Sys2Proof.Machine

/-! The invariants that every step keeps, each by its case analysis over the moves and the events. -/

namespace Sys2Proof.Machine

/-! ## Two ways to use the events -/

/-- Entry to RUN leaves the blocks with the first own ALIVE offered, and settles (R185). -/
theorem State.presence_moves (s : State) : s.Moves s.presence := State.Moves.county County.offerAlive_moves

/-- An invariant that the moves, what leaves the blocks, the settling and the unsettled changes of the controller keep, and that holds after resets,
starts and the image read, is kept by every step. -/
theorem step_keeps_of_moves {P : State → Prop} (hmove : ∀ s u, State.Move s u → P s → P u)
    (happart : ∀ s t, State.SameBlocks s t → s.ChannelsStep t → P s → P t) (hsettle : ∀ s, P s → P s.settle)
    (htrunk : ∀ s t, TrunkAside s t → P s → P { s with trunk := t }) (hblank : ∀ t, State.Blank t → P t)
    (hruns : ∀ (s u : State) count levels, P s → s.mode = .loading → u.cfg = s.cfg → u.number = s.number →
      P (u.runBlocks count levels))
    (himage : ∀ s, s.mode = .loading → P s → P s.takeImage) {s t : State} (hs : P s) (h : step s = .next t) : P t := by
  refine step_keeps (fun s t hchange hs => ?_) hs h
  cases hchange with
  | event h =>
    cases h with
    | settled h => exact hsettle _ (h.keeps hmove hs)
    | aside h hc => exact happart _ _ h.toSameBlocks hc hs
    | trunk t h => exact htrunk _ t h hs
    | flushed hl hd h => exact (State.Moves.county (County.Moves.queue h)).keeps hmove hs
  | apart h hc => exact happart _ _ h hc hs
  | blank h => exact hblank _ h
  | starts hm hcfg hnumber count levels =>
    exact hsettle _ ((State.presence_moves _).keeps hmove (hruns _ _ count levels hs hm hcfg hnumber))
  | takesImage hm => exact himage _ hm hs

/-- What the moves of the county side and the own changes keep, and an empty view over an empty queue has, every step
keeps. -/
theorem step_keeps_county {I : County → Prop} (hmove : ∀ c k k', County.Move c k k' → I k → I k')
    (hown : ∀ c k p e, Entry.StoredFor c k.view p e → I k → I (k.putOwn c e))
    (hempty : ∀ k, k.view = [] → k.queue = [] → I k) {s t : State} (hs : I s.toCounty) (h : step s = .next t) :
    I t.toCounty := by
  have hsame : ∀ {s u : State}, s.SameBlocks u → I s.toCounty → I u.toCounty :=
    fun {s u} h => hmove s.ctx _ _ (.rest h.view h.queue)
  refine step_keeps_of_moves (P := fun s => I s.toCounty) (fun s u hm hs => ?_) (fun _ _ h _ hs => hsame h hs) (fun _ hs => hs) (fun _ _ _ hs => hs)
    (fun t ht => hempty _ ht.view ht.queue) (fun _ _ _ _ _ _ _ _ => hempty _ rfl rfl) (fun s _ hs => ?_) hs h
  · cases hm with
    | county h => exact hmove _ _ _ h hs
    | declares p f hf hk =>
      obtain ⟨k₁, e, hbefore, hstored, -, hafter⟩ := hk
      exact hafter.keeps (hmove _) (hown _ _ p e hstored (hbefore.keeps (hmove _) hs))
    | aside h => exact hsame h.toSameBlocks hs
    | evidence p f hf hd => exact hs
    | channel n r h => exact hs
    | trunk t h => exact hs
    | saves e he hl hn => exact hs
    | returns l rest h => exact hs
    | sets l hl h => exact hs
  · exact hmove s.ctx s.toCounty _ (.rest rfl rfl) hs

/-! ## The queue (O39) -/

@[simp] theorem createEntry_queue (c : Ctx) (e : Entry) (v : ViewSide) : (createEntry c e v).1.queue = v.queue := by
  rcases createEntry_cases c e v with ⟨h, -⟩ | ⟨x, -, h, -⟩ | ⟨-, h, -⟩ <;> rw [h] <;> rfl

@[simp] theorem County.putOwn_queue (c : Ctx) (e : Entry) (k : County) : (k.putOwn c e).queue = k.queue := by
  unfold County.putOwn
  split
  · rfl
  · exact createEntry_queue ..

/-- What every change of the queue keeps, and the empty queue has, every step keeps. -/
theorem step_keeps_queue {I : List QItem → Prop} (hmove : ∀ q r, QueueMove q r → I q.queue → I r.queue) (hempty : I [])
    {s t : State} (hs : I s.queue) (h : step s = .next t) : I t.queue := by
  refine step_keeps_county (I := fun k => I k.queue) (fun c k k' hm hk => ?_) (fun c k p e _ hk => ?_)
    (fun k _ hq => hq ▸ hempty) hs h
  · cases hm with
    | rest hv hq => exact hq ▸ hk
    | queue h => exact hmove _ _ h hk
    | entries g hg => exact hk
    | replaces o p e e' ho he h => exact hk
    | expires f h => exact hk
    | creates e hn h => exact (createEntry_queue c e k.toViewSide) ▸ hk
  · rw [County.putOwn_queue]
    exact hk

/-- Settles O39: every change of the queue keeps the charge, and the order with its keys. -/
theorem queueKeepsChargeOrderKeys : Obligations.QueueKeepsChargeOrderKeys := by
  unfold Obligations.QueueKeepsChargeOrderKeys
  refine ⟨fun s t hs h => ?_, fun s t hs h => ?_⟩
  · simp only [State.chargeOk, decide_eq_true_eq] at hs ⊢
    exact step_keeps_queue (I := fun q => totalCharge q ≤ chargeLimit) (fun q r hm => QueueMoves.charge (.single hm))
      (Nat.zero_le _) hs h
  · rw [queueOk_iff] at hs ⊢
    exact step_keeps_queue (I := List.Pairwise QItem.Precedes) (fun q r hm => QueueMoves.pairwise (.single hm))
      List.Pairwise.nil hs h

/-! ## The view and the attention output (O45) -/

/-- The view as R85 bounds it, of the county side. -/
def County.ViewOk (k : County) : Prop := k.view.length ≤ viewCapacity ∧ viewOrdered k.view = true

theorem State.viewOk_iff (s : State) : s.viewOk = true ↔ s.toCounty.ViewOk := by simp [State.viewOk, County.ViewOk]

theorem viewOrdered_updateEntry {v : List Entry} {o p : Nat} {f : Entry → Entry}
    (hf : ∀ e, e.origin = o → e.point = p → (f e).origin = e.origin ∧ (f e).point = e.point) (h : viewOrdered v = true) :
    viewOrdered (updateEntry v o p f) = true := by
  refine viewOrdered_map _ (fun e _ => ?_) h
  split
  · rename_i hkey
    obtain ⟨ho, hp⟩ := (e.hasKey_iff o p).mp hkey
    exact hf e ho hp
  · exact ⟨rfl, rfl⟩

theorem County.Move.viewOk {c : Ctx} {k k' : County} (h : County.Move c k k') (hk : k.ViewOk) : k'.ViewOk := by
  obtain ⟨hlength, hordered⟩ := hk
  cases h with
  | rest hv hq => exact ⟨hv ▸ hlength, hv ▸ hordered⟩
  | queue h => exact ⟨hlength, hordered⟩
  | entries g hg =>
    exact ⟨by simpa using hlength, viewOrdered_map g (fun e he => ⟨(hg e he).origin, (hg e he).point⟩) hordered⟩
  | replaces o p e e' ho he h =>
    obtain ⟨-, horigin, hpoint⟩ := findEntry_mem he
    refine ⟨by simpa using hlength, viewOrdered_updateEntry (fun x hxo hxp => ?_) hordered⟩
    exact ⟨by rw [h.origin, horigin, hxo], by rw [h.point, hpoint, hxp]⟩
  | expires f h => exact ⟨(List.length_filter_le _ _).trans hlength, viewOrdered_filter f hordered⟩
  | creates e hn h => exact ⟨createEntry_length hlength, createEntry_ordered hordered⟩

theorem County.putOwn_viewOk {c : Ctx} {k : County} (e : Entry) (hk : k.ViewOk) : (k.putOwn c e).ViewOk := by
  obtain ⟨hlength, hordered⟩ := hk
  unfold County.putOwn
  split
  · rename_i x hx
    refine ⟨?_, viewOrdered_putEntry e hordered⟩
    rw [putEntry_length_held hordered (by simp [hx])]
    exact hlength
  · exact ⟨createEntry_length hlength, createEntry_ordered hordered⟩

theorem State.SameBlocks.attentionOk {s u : State} (h : s.SameBlocks u) : u.attentionOk = s.attentionOk := by
  simp [State.attentionOk, h.attention, h.view, h.level]

/-- Every change leaves the attention output at its condition, or leaves it and what the condition reads. -/
theorem State.Change.attentionOk {s t : State} (h : State.Change s t) (hs : s.attentionOk = true) : t.attentionOk = true := by
  cases h with
  | event h =>
    cases h with
    | settled h => simp [State.attentionOk, State.settle]
    | aside h hc => exact h.attentionOk.trans hs
    | trunk t h => exact hs
    | flushed hl hd h => exact hs
  | apart h hc => exact h.attentionOk.trans hs
  | blank h => simp [State.attentionOk, h.attention, h.view, attentionCondition]
  | starts hm hcfg hnumber count levels => simp [State.attentionOk, State.enterRun, State.settle]
  | takesImage hm => exact hs

/-- Settles O45: the moves keep the bound and the order of the view, every change the attention output. -/
theorem viewOrderedAttentionFollows : Obligations.ViewOrderedAttentionFollows := by
  unfold Obligations.ViewOrderedAttentionFollows
  refine ⟨fun s t hs h => ?_, fun s t hs h => step_keeps (fun _ _ => State.Change.attentionOk) hs h⟩
  rw [State.viewOk_iff] at hs ⊢
  exact step_keeps_county (fun _ _ _ => County.Move.viewOk) (fun _ _ _ e _ => County.putOwn_viewOk e)
    (fun k hv _ => by simp [County.ViewOk, hv, viewOrdered]) hs h

end Sys2Proof.Machine

/-! Invariants of the levels, the access state, the baselines and the filter records. -/

namespace Sys2Proof.Machine

/-! ## Clamped settings -/

theorem clamp_range {lo hi : Nat} (h : lo ≤ hi) (x : Nat) : lo ≤ clamp lo hi x ∧ clamp lo hi x ≤ hi := by
  simp only [clamp]
  omega

theorem below_lt {limit : Nat} (h : 0 < limit) (x : Nat) : below limit x < limit := by
  unfold below
  split <;> omega

/-- Each family's off threshold of an image lies below its on threshold (R6). -/
theorem thresholdsOk_settingsOf (m : Memory) : thresholdsOk (settingsOf m) = true := by
  have hoff : ∀ x, (paramsAt m x).off < (paramsAt m x).on := fun x => below_lt (clamp_range (by decide) _).1 _
  simp [thresholdsOk, settingsOf, hoff]

/-- The severities of a set of settings lie in 1..7 (R3). -/
def SeveritiesOk (c : Settings) : Prop := ∀ n ∈ c.severity.toList, 1 ≤ n ∧ n ≤ 7

theorem SeveritiesOk.severityOf {c : Settings} (h : SeveritiesOk c) (k : Kind) :
    1 ≤ c.severityOf k ∧ c.severityOf k ≤ 7 := by
  unfold Settings.severityOf tget
  cases hk : c.severity[k.code - 1]? with
  | none => decide
  | some n => exact h n (by simpa using Vector.mem_of_getElem? hk)

theorem severitiesOk_settingsOf (m : Memory) : SeveritiesOk (settingsOf m) := by
  intro n hn
  obtain ⟨k, rfl⟩ : ∃ k : Fin 18, clamp 1 7 (m.byteAt (20 + k.val)) = n := by
    simpa [settingsOf] using hn
  exact clamp_range (by decide) _

/-! ## Levels and severities (O53) -/

/-- The severity of every entry of the view lies in 1..7 (R3). -/
def SeveritiesIn (v : List Entry) : Prop := ∀ e ∈ v, 1 ≤ e.severity ∧ e.severity ≤ 7

theorem SeveritiesIn.createEntry {c : Ctx} {e : Entry} {v : ViewSide} (hv : SeveritiesIn v.view)
    (he : 1 ≤ e.severity ∧ e.severity ≤ 7) : SeveritiesIn (createEntry c e v).1.view := by
  rcases createEntry_cases c e v with ⟨h, -⟩ | ⟨x, -, h, -⟩ | ⟨-, h, -⟩
  · rw [h]
    intro y hy
    rcases mem_putEntry hy with rfl | hy
    · exact he
    · exact hv y hy
  · rw [h]
    intro y hy
    rcases mem_putEntry hy with rfl | hy
    · exact he
    · exact hv y (List.mem_filter.mp hy).1
  · rw [h]
    exact hv

theorem County.Move.severities {c : Ctx} {k k' : County} (h : County.Move c k k') (hc : SeveritiesOk c.cfg)
    (hk : SeveritiesIn k.view) : SeveritiesIn k'.view := by
  have hfollows : ∀ {e e' : Entry}, e ∈ k.view → e.Follows c e' → 1 ≤ e'.severity ∧ e'.severity ≤ 7 := by
    intro e e' he hf
    rcases hf.severity with hs | hs
    · exact hs ▸ hk e he
    · exact hs
  cases h with
  | rest hv hq => exact hv ▸ hk
  | queue h => exact hk
  | entries g hg =>
    intro y hy
    obtain ⟨e, he, rfl⟩ := List.mem_map.mp hy
    exact hfollows he (hg e he)
  | replaces o p e e' ho he h =>
    intro y hy
    obtain ⟨x, hx, rfl⟩ := List.mem_map.mp hy
    split
    · exact hfollows (findEntry_mem he).1 h
    · exact hk x hx
  | expires f h => exact fun y hy => hk y (List.mem_filter.mp hy).1
  | creates e hn h =>
    refine SeveritiesIn.createEntry hk ?_
    rcases h.severity with hs | ⟨kind, hs⟩
    · exact hs
    · exact hs ▸ hc.severityOf kind

theorem County.putOwn_severities {c : Ctx} {k : County} {p : Nat} {e : Entry} (h : e.StoredFor c k.view p)
    (hc : SeveritiesOk c.cfg) (hk : SeveritiesIn k.view) : SeveritiesIn (k.putOwn c e).view := by
  have he : 1 ≤ e.severity ∧ e.severity ≤ 7 := by
    rcases h.severity with ⟨kind, hs⟩ | ⟨old, hold, hs⟩
    · exact hs ▸ hc.severityOf kind
    · exact hs ▸ hk old hold
  unfold County.putOwn
  split
  · intro y hy
    rcases mem_putEntry hy with rfl | hy
    · exact he
    · exact hk y hy
  · exact SeveritiesIn.createEntry hk he

/-- Levels in 0..7 and severities in 1..7 (R3, R162), as one proposition per part. -/
structure State.LevelsIn (s : State) : Prop where
  level : s.level ≤ 7
  stack : ∀ l ∈ s.stack, l ≤ 7
  startLevel : s.cfg.startLevel ≤ 7
  severities : SeveritiesOk s.cfg
  view : SeveritiesIn s.view

theorem State.levelsOk_iff (s : State) : s.levelsOk = true ↔ s.LevelsIn := by
  simp only [State.levelsOk, Bool.and_eq_true, decide_eq_true_eq, List.all_eq_true]
  exact ⟨fun ⟨⟨⟨⟨h1, h2⟩, h3⟩, h4⟩, h5⟩ => ⟨h1, h2, h3, h4, h5⟩,
    fun ⟨h1, h2, h3, h4, h5⟩ => ⟨⟨⟨⟨h1, h2⟩, h3⟩, h4⟩, h5⟩⟩

theorem State.SameBlocks.levelsIn {s u : State} (h : s.SameBlocks u) (hs : s.LevelsIn) : u.LevelsIn :=
  ⟨h.level ▸ hs.level, h.stack ▸ hs.stack, h.cfg ▸ hs.startLevel, h.cfg ▸ hs.severities, h.view ▸ hs.view⟩

theorem State.Move.levelsIn {s u : State} (h : State.Move s u) (hs : s.LevelsIn) : u.LevelsIn := by
  obtain ⟨hlevel, hstack, hstart, hsev, hview⟩ := hs
  have hcounty : ∀ k k' : County, County.Moves s.ctx k k' → SeveritiesIn k.view → SeveritiesIn k'.view :=
    fun k k' hm => County.Moves.keeps (P := fun k => SeveritiesIn k.view) (fun _ _ h => h.severities hsev) hm
  cases h with
  | county h => exact ⟨hlevel, hstack, hstart, hsev, h.severities hsev hview⟩
  | evidence p f hf hd => exact ⟨hlevel, hstack, hstart, hsev, hview⟩
  | declares p f hf hk =>
    obtain ⟨k₁, e, hbefore, hstored, -, hafter⟩ := hk
    exact ⟨hlevel, hstack, hstart, hsev,
      hcounty _ _ hafter (County.putOwn_severities hstored hsev (hcounty _ _ hbefore hview))⟩
  | channel n r h => exact ⟨hlevel, hstack, hstart, hsev, hview⟩
  | trunk t h => exact ⟨hlevel, hstack, hstart, hsev, hview⟩
  | saves e he hl hn =>
    exact ⟨(hview e he).2, List.forall_mem_cons.mpr ⟨hlevel, hstack⟩, hstart, hsev, hview⟩
  | returns l rest h =>
    obtain ⟨hl, hrest⟩ := List.forall_mem_cons.mp (h ▸ hstack)
    exact ⟨hl, hrest, hstart, hsev, hview⟩
  | sets l hl h => exact ⟨hl, hstack, hstart, hsev, hview⟩
  | aside h hc => exact h.levelsIn ⟨hlevel, hstack, hstart, hsev, hview⟩

theorem step_keeps_levelsIn {s t : State} (hs : s.LevelsIn) (h : step s = .next t) : t.LevelsIn := by
  refine step_keeps_of_moves (fun _ _ => State.Move.levelsIn) (fun s t h _ hs => h.levelsIn hs)
    (fun s hs => ⟨hs.level, hs.stack, hs.startLevel, hs.severities, hs.view⟩) (fun s t _ hs => ⟨hs.level, hs.stack, hs.startLevel, hs.severities, hs.view⟩) (fun t ht => ?_)
    (fun s u count levels hs _ hcfg _ => ?_) (fun s _ hs => ?_) hs h
  · refine ⟨by rw [ht.level]; decide, by simp [ht.stack], by rw [ht.cfg]; decide, ?_, by simp [ht.view, SeveritiesIn]⟩
    rw [ht.cfg, SeveritiesOk]
    decide
  · have hstart : u.cfg.startLevel ≤ 7 := hcfg ▸ hs.startLevel
    exact ⟨hstart, by simp [State.runBlocks, State.cleared, State.reset], hstart, hcfg ▸ hs.severities,
      by simp [State.runBlocks, State.cleared, State.reset, SeveritiesIn]⟩
  · exact ⟨hs.level, hs.stack, Nat.min_le_left _ _, severitiesOk_settingsOf _, hs.view⟩

theorem State.stackOk_iff (s : State) : s.stackOk = true ↔ s.stack.length ≤ stackLimit ∧ stackBelow s.level s.stack = true := by
  simp [State.stackOk]

theorem State.SameBlocks.stackOk {s u : State} (h : s.SameBlocks u) : u.stackOk = s.stackOk := by
  simp [State.stackOk, h.stack, h.level]

theorem State.Move.stackOk {s u : State} (h : State.Move s u) (hs : s.stackOk = true) : u.stackOk = true := by
  have ⟨hlength, hbelow⟩ := (State.stackOk_iff s).mp hs
  cases h with
  | saves e he hl hn => exact (State.stackOk_iff _).mpr ⟨hn, by simp [stackBelow, hl, hbelow]⟩
  | returns l rest h =>
    rw [h] at hlength hbelow
    simp only [stackBelow, Bool.and_eq_true] at hbelow
    exact (State.stackOk_iff _).mpr ⟨Nat.le_of_succ_le hlength, hbelow.2⟩
  | sets l hl h => exact (State.stackOk_iff _).mpr ⟨hlength, by rw [h]; rfl⟩
  | aside h hc => exact h.stackOk.trans hs
  | county h => exact hs
  | evidence p f hf hd => exact hs
  | declares p f hf hk => exact hs
  | channel n r h => exact hs
  | trunk t h => exact hs

/-- Settles O53: TAKE saves the level below the severity it takes, FINISH returns to the level saved last, and every level
comes from a severity, from SET LEVEL or from the settings. -/
theorem stackIncreasesLevelsInRange : Obligations.StackIncreasesLevelsInRange := by
  unfold Obligations.StackIncreasesLevelsInRange
  refine ⟨fun s t hs h => ?_, fun s t hs h => ?_⟩
  · refine step_keeps_of_moves (fun _ _ => State.Move.stackOk) (fun _ _ h _ hs => h.stackOk.trans hs) (fun _ hs => hs) (fun _ _ _ hs => hs) (fun t ht => ?_)
      (fun _ _ _ _ _ _ _ _ => rfl) (fun _ _ hs => hs) hs h
    simp [State.stackOk, ht.stack, stackBelow]
  · rw [State.levelsOk_iff] at hs ⊢
    exact step_keeps_levelsIn hs h

/-! ## The access state (O33) -/

/-- What holds of the controller while an event is not yet settled: a legal pair of states, no frame taken while blind, a slot
in DEFER alone. -/
structure Trunk.Sound (t : Trunk) : Prop where
  legal : t.legal = true
  blind : t.blind = true → t.rx = none
  slot : t.slot.isSome = true → t.access = .defer

/-- What holds of it over a queue once an event has settled. -/
structure Trunk.Settled (t : Trunk) (q : List QItem) : Prop extends t.Sound where
  opened : t.access = .idle → q = [] ∨ t.busy = true
  runs : t.access = .defer → t.busy = !t.slot.isSome

theorem State.trunkSettled_iff (s : State) : s.trunk.Settled s.queue ↔
    s.accessOk = true ∧ s.slotOk = true ∧ (s.trunk.blind = true → s.trunk.rx = none) := by
  constructor
  · rintro ⟨⟨hlegal, hblind, hslot⟩, hopened, hruns⟩
    refine ⟨?_, ?_, hblind⟩
    · by_cases ha : s.trunk.access = .idle
      · simpa [State.accessOk, hlegal, ha] using hopened ha
      · simp [State.accessOk, hlegal, ha]
    · by_cases ha : s.trunk.access = .defer
      · simp [State.slotOk, ha, hruns ha]
      · have hnone : s.trunk.slot.isSome = false := Bool.eq_false_iff.mpr fun h => ha (hslot h)
        simp [State.slotOk, ha, hnone]
  · rintro ⟨haccess, hslot, hblind⟩
    simp only [State.accessOk, State.slotOk, Bool.and_eq_true, Bool.or_eq_true, Bool.not_eq_true', beq_eq_false_iff_ne,
      beq_iff_eq, List.isEmpty_iff] at haccess hslot
    obtain ⟨hlegal, hopened⟩ := haccess
    refine ⟨⟨hlegal, hblind, fun h => ?_⟩, fun ha => ?_, fun ha => ?_⟩
    · rw [hslot, Bool.and_eq_true, beq_iff_eq] at h
      exact h.1
    · rcases hopened with (hne | hq) | hb
      · exact absurd ha hne
      · exact .inl hq
      · exact .inr hb
    · simp [hslot, ha]

theorem TrunkStep.sound {t t' : Trunk} (h : TrunkStep t t') (ht : t.Sound) : t'.Sound :=
  ⟨h.legal ht.legal, h.blind ht.legal ht.blind, h.slot ht.legal ht.slot⟩

theorem State.Move.trunkSound {s u : State} (h : State.Move s u) (hs : s.trunk.Sound) : u.trunk.Sound := by
  cases h with
  | trunk t h => exact h.sound hs
  | aside h hc => exact h.trunk ▸ hs
  | county h => exact hs
  | evidence p f hf hd => exact hs
  | declares p f hf hk => exact hs
  | channel n r h => exact hs
  | saves e he hl hn => exact hs
  | returns l rest h => exact hs
  | sets l hl h => exact hs

theorem Trunk.legal_idle {t : Trunk} (h : t.legal = true) (ha : t.access = .idle) : t.enable = .enabled := by
  cases he : t.enable <;> simp_all [Trunk.legal]

/-- Settling opens a waiting access and starts or discards the slot (R153 to R155). -/
theorem Trunk.Sound.settled {t : Trunk} (h : t.Sound) (q : List QItem) (clock : Instant) : (t.settled q clock).Settled q := by
  have hstays (hidle : t.access ≠ .idle) (hdefer : t.access ≠ .defer) : t.Settled q :=
    ⟨h, fun ha => absurd ha hidle, fun ha => absurd ha hdefer⟩
  unfold Trunk.settled
  split
  · rename_i ha
    have henabled := Trunk.legal_idle h.legal ha
    split
    · rename_i hopen
      split
      · exact ⟨h, fun _ => .inl rfl, fun hd => by simp [ha] at hd⟩
      · exact ⟨⟨by simp [Trunk.legal, henabled], by simp [Trunk.blind], fun _ => rfl⟩, by simp, fun _ => hopen.2⟩
    · rename_i hclosed
      exact ⟨h, fun _ => .inr (by simpa [henabled] using hclosed), fun hd => by simp [ha] at hd⟩
  · rename_i ha
    split
    · rename_i hb
      exact ⟨⟨h.legal, h.blind, by simp⟩, fun hi => by simp [ha] at hi, fun _ => hb⟩
    · rename_i hb
      have hclear : t.busy = false := Bool.eq_false_iff.mpr hb
      split
      · exact ⟨⟨h.legal, h.blind, fun _ => ha⟩, fun hi => by simp [ha] at hi, fun _ => hclear⟩
      · rename_i hs
        exact ⟨h, fun hi => by simp [ha] at hi, fun _ => by simpa [hclear, Option.isSome_iff_ne_none] using hs⟩
  · rename_i ha
    exact hstays (by simp [ha]) (by simp [ha])
  · rename_i ha
    exact hstays (by simp [ha]) (by simp [ha])
  · rename_i ha
    exact hstays (by simp [ha]) (by simp [ha])

/-- TRUNK DISABLE ends in a legal pair: DRAINING where KEY is asserted, OFF otherwise (R159). -/
theorem Trunk.Sound.disabled {t : Trunk} (h : t.Sound) :
    t.disabled.Sound ∧ t.disabled.access ≠ .idle ∧ t.disabled.access ≠ .defer := by
  obtain ⟨hlegal, hblind, hslot⟩ := h
  have hidle (he : t.enable ≠ .enabled) : t.access ≠ .idle ∧ t.access ≠ .defer := by
    cases hn : t.enable <;> cases ha : t.access <;> simp_all [Trunk.legal]
  unfold Trunk.disabled
  split
  · rename_i he ha
    exact ⟨⟨by simp [Trunk.legal, ha], hblind, hslot⟩, by simp [ha], by simp [ha]⟩
  · rename_i he ha
    exact ⟨⟨by simp [Trunk.legal, ha], hblind, hslot⟩, by simp [ha], by simp [ha]⟩
  · exact ⟨⟨rfl, by simp [Trunk.blind], by simp⟩, by simp, by simp⟩
  · exact ⟨⟨rfl, by simp [Trunk.blind], by simp⟩, by simp, by simp⟩
  · rename_i he ha
    exact ⟨⟨by simp [Trunk.legal, ha], hblind, hslot⟩, by simp [ha], by simp [ha]⟩
  all_goals
    rename_i he
    exact ⟨⟨hlegal, hblind, hslot⟩, hidle (by simp [he])⟩

theorem TrunkAside.settled {s : State} {t : Trunk} (h : TrunkAside s t) (hs : s.trunk.Settled s.queue) :
    t.Settled s.queue := by
  obtain ⟨⟨hlegal, hblind, hslot⟩, hopened, hruns⟩ := hs
  cases h with
  | character f g hf =>
    have hbusy : ({ s.trunk with rx := some g } : Trunk).busy = s.trunk.busy := by simp [Trunk.busy, hf]
    refine ⟨⟨hlegal, fun hb => ?_, hslot⟩, fun ha => ?_, fun ha => ?_⟩
    · exact absurd (hblind hb) (by simp [hf])
    · rw [hbusy]
      exact hopened ha
    · rw [hbusy]
      exact hruns ha
  | slotEnds hd hsome =>
    refine ⟨⟨hlegal, hblind, fun _ => hd⟩, fun ha => by simp [hd] at ha, fun _ => ?_⟩
    exact (hruns hd).trans (by simp [hsome])
  | gone hd hq =>
    have henabled : s.trunk.enable = .enabled := by
      cases he : s.trunk.enable <;> simp_all [Trunk.legal]
    exact ⟨⟨by simp [Trunk.legal, henabled], by simp [Trunk.blind], by simp⟩, fun _ => .inl hq, by simp⟩
  | sends hk =>
    refine ⟨⟨?_, fun _ => hblind (by simp [Trunk.blind, hk]), fun h => ?_⟩, by simp, by simp⟩
    · cases he : s.trunk.enable <;> simp_all [Trunk.legal]
    · have := hslot h
      simp [hk] at this
  | disabled =>
    obtain ⟨hsound, hidle, hdefer⟩ := Trunk.Sound.disabled ⟨hlegal, hblind, hslot⟩
    exact ⟨hsound, fun ha => absurd ha hidle, fun ha => absurd ha hdefer⟩

/-- Every event leaves the controller settled. -/
theorem State.Event.trunkSettled {s t : State} (h : State.Event s t) (hs : s.trunk.Settled s.queue) :
    t.trunk.Settled t.queue := by
  cases h with
  | settled h ho =>
    exact (h.keeps (P := fun s => s.trunk.Sound) (fun _ _ => State.Move.trunkSound) hs.toSound).settled _ _
  | aside h hc =>
    rw [h.trunk, h.queue]
    exact hs
  | trunk t h => exact h.settled hs
  | flushed hl hd h =>
    have hoff : s.trunk.access = .off := by
      have hlegal := hs.legal
      cases ha : s.trunk.access <;> simp_all [Trunk.legal]
    exact ⟨hs.toSound, fun ha => by simp [hoff] at ha, hs.runs⟩

/-- So does every change. -/
theorem State.Change.trunkSettled {s t : State} (h : State.Change s t) (hs : s.trunk.Settled s.queue) :
    t.trunk.Settled t.queue := by
  cases h with
  | event h => exact h.trunkSettled hs
  | apart h hc =>
    rw [h.trunk, h.queue]
    exact hs
  | blank h =>
    rw [h.trunk, h.queue]
    exact ⟨⟨rfl, fun _ => rfl, by simp [State.reset]⟩, fun _ => .inl rfl, by simp [State.reset]⟩
  | @starts u hm hcfg hnumber count levels =>
    have hsound : (u.runBlocks count levels).trunk.Sound := ⟨rfl, fun _ => rfl, fun h => by cases h⟩
    exact hsound.settled _ _
  | takesImage hm => exact hs

/-- Settles O33: what an event makes of the controller is sound, and settling opens what waits. -/
theorem accessStateStaysLegal : Obligations.AccessStateStaysLegal := by
  unfold Obligations.AccessStateStaysLegal
  intro s t haccess hslot hblind h
  rw [← State.trunkSettled_iff]
  exact step_keeps (P := fun s => s.trunk.Settled s.queue) (fun _ _ => State.Change.trunkSettled)
    ((State.trunkSettled_iff s).mpr ⟨haccess, hslot, hblind⟩) h

end Sys2Proof.Machine

/-! Invariants of the filter records and the channels' records. -/

namespace Sys2Proof.Machine

/-! ## The filter records (O20) -/

theorem State.filter_setFilter (s : State) (p n : Nat) (f : FilterRecord) :
    (s.setFilter p f).filter n = if p = n ∧ p < 32 then f else s.filter n := by
  unfold State.filter
  by_cases hp : p < 32
  · by_cases hn : p = n
    · subst hn
      simp [tget_tset_self _ _ _ hp, hp]
    · simp [tget_tset_ne _ _ _ hn, hn]
  · simp [tset_outside _ _ (show 32 ≤ p by omega), hp]

/-- What the station state and the settings ask of a point's record (R1, R5, R7, R22). -/
structure FilterRecord.Sound (f : FilterRecord) (mode : StationMode) (cfg : Settings) (p : Nat) : Prop where
  range : f.inRange = true
  unused : f.declared = .unused → f = ⟨.unused, 0, none, 0, 0⟩ ∧ (mode = .run → cfg.family p = none)
  used : f.declared ≠ .unused → mode = .run ∧ (cfg.family p).isSome = true
  above : ∀ k, f.declared = .fault k → (cfg.paramsOf p).off < f.p

theorem State.filterOk_iff (s : State) (p : Nat) : s.filterOk p = true ↔ (s.filter p).Sound s.mode s.cfg p := by
  constructor
  · intro h
    simp only [State.filterOk, Bool.and_eq_true] at h
    obtain ⟨hrange, h⟩ := h
    cases hd : (s.filter p).declared <;> simp only [hd, Bool.and_eq_true, decide_eq_true_eq] at h
    case unused => exact ⟨hrange, fun _ => h, fun hu => absurd hd hu, fun k hk => by simp [hd] at hk⟩
    case fault k =>
      exact ⟨hrange, fun hu => by simp [hd] at hu, fun _ => ⟨h.1.1, h.2⟩, fun _ _ => h.1.2⟩
    all_goals exact ⟨hrange, fun hu => by simp [hd] at hu, fun _ => h, fun k hk => by simp [hd] at hk⟩
  · rintro ⟨hrange, hunused, hused, habove⟩
    simp only [State.filterOk, hrange, Bool.true_and]
    cases hd : (s.filter p).declared with
    | unused => exact decide_eq_true (hunused hd)
    | normal => simpa using hused (by simp [hd])
    | fault k =>
      obtain ⟨hm, hfamily⟩ := hused (by simp [hd])
      simpa [hm, hfamily] using habove k hd
    | inhibited => simpa using hused (by simp [hd])

/-- The records of all points, and the thresholds they stand under. -/
structure State.FiltersSound (s : State) : Prop where
  thresholds : thresholdsOk s.cfg = true
  points : ∀ p < 32, (s.filter p).Sound s.mode s.cfg p

theorem State.filtersOk_iff (s : State) : s.filtersOk = true ↔ s.FiltersSound := by
  simp only [State.filtersOk, Bool.and_eq_true, List.all_eq_true, List.mem_range, State.filterOk_iff]
  exact ⟨fun h => ⟨h.1, h.2⟩, fun h => ⟨h.1, h.2⟩⟩

theorem FilterStep.sound {cfg : Settings} {mode : StationMode} {p : Nat} {f f' : FilterRecord} (h : FilterStep cfg p f f')
    (ht : thresholdsOk cfg = true) (hf : f.Sound mode cfg p) : f'.Sound mode cfg p :=
  ⟨h.range hf.range, fun hu => absurd hu h.used', fun _ => hf.used h.used, h.above ht hf.range hf.above⟩

theorem State.FiltersSound.setFilter {s : State} {p : Nat} {f : FilterRecord} (hs : s.FiltersSound)
    (h : FilterStep s.cfg p (s.filter p) f) : (s.setFilter p f).FiltersSound := by
  refine ⟨hs.thresholds, fun n hn => ?_⟩
  rw [State.filter_setFilter]
  split
  · rename_i hp
    obtain ⟨rfl, -⟩ := hp
    exact h.sound hs.thresholds (hs.points p hn)
  · exact hs.points n hn

/-- The records read the filters, the mode and the settings alone. -/
theorem State.FiltersSound.of_eq {s u : State} (hs : s.FiltersSound) (hf : u.filters = s.filters) (hm : u.mode = s.mode)
    (hc : u.cfg = s.cfg) : u.FiltersSound := by
  refine ⟨hc ▸ hs.thresholds, fun p hp => ?_⟩
  rw [show u.filter p = s.filter p by simp [State.filter, hf], hm, hc]
  exact hs.points p hp

theorem State.Move.filtersSound {s u : State} (h : State.Move s u) (hs : s.FiltersSound) : u.FiltersSound := by
  cases h with
  | evidence p f h hd => exact hs.setFilter h
  | declares p f h hk => exact (hs.setFilter h).of_eq rfl rfl rfl
  | aside h hc => exact hs.of_eq h.filters h.mode h.cfg
  | county h => exact hs.of_eq rfl rfl rfl
  | channel n r h => exact hs.of_eq rfl rfl rfl
  | trunk t h => exact hs.of_eq rfl rfl rfl
  | saves e he hl hn => exact hs.of_eq rfl rfl rfl
  | returns l rest h => exact hs.of_eq rfl rfl rfl
  | sets l hl h => exact hs.of_eq rfl rfl rfl

theorem tget_replicate {α : Type} {n : Nat} (x : α) (i : Nat) : tget (Vector.replicate n x) i x = x := by
  by_cases h : i < n
  · simp [tget, h]
  · exact tget_outside _ _ (by omega)

theorem filter_reset {s : State} (h : s.filters = State.reset.filters) (p : Nat) : s.filter p = ⟨.unused, 0, none, 0, 0⟩ := by
  rw [State.filter, h]
  exact tget_replicate _ p

theorem runBlocks_filter (u : State) (count : Half) (levels : BitVec 8) {p : Nat} (hp : p < 32) :
    (u.runBlocks count levels).filter p = filterAtStart u.cfg p := by
  simp [State.filter, State.runBlocks, tget, hp]

theorem filterAtStart_sound (cfg : Settings) (p : Nat) : (filterAtStart cfg p).Sound .run cfg p := by
  cases hf : cfg.family p with
  | none => exact ⟨rfl, fun _ => by simp [filterAtStart, hf], by simp [filterAtStart, hf], by simp [filterAtStart, hf]⟩
  | some x => exact ⟨rfl, by simp [filterAtStart, hf], by simp [hf], by simp [filterAtStart, hf]⟩

/-- A record as reset leaves it is sound outside RUN, whatever the settings. -/
theorem FilterRecord.sound_of_reset {mode : StationMode} (cfg : Settings) (p : Nat) (hm : mode ≠ .run) :
    (⟨.unused, 0, none, 0, 0⟩ : FilterRecord).Sound mode cfg p :=
  ⟨rfl, fun _ => ⟨rfl, fun h => absurd h hm⟩, by simp, by simp⟩

/-- Settles O20: samples and requests step the record of a configured point within its ranges, and starts and resets set all
of them. -/
theorem filtersStayInRange : Obligations.FiltersStayInRange := by
  unfold Obligations.FiltersStayInRange
  intro s t hs h
  rw [State.filtersOk_iff] at hs ⊢
  refine step_keeps_of_moves (fun _ _ => State.Move.filtersSound) (fun s t h _ hs => hs.of_eq h.filters h.mode h.cfg)
    (fun s hs => hs.of_eq rfl rfl rfl)
    (fun s t _ hs => hs.of_eq rfl rfl rfl) (fun t ht => ⟨by rw [ht.cfg]; decide, fun p _ => ?_⟩)
    (fun s u count levels hs hm hcfg _ => ⟨?_, fun p hp => ?_⟩) (fun s hm hs => ⟨thresholdsOk_settingsOf _, fun p hp => ?_⟩)
    hs h
  · rw [filter_reset ht.filters]
    exact FilterRecord.sound_of_reset _ p ht.mode
  · have hthresholds : thresholdsOk u.cfg = true := hcfg ▸ hs.thresholds
    exact hthresholds
  · rw [runBlocks_filter u count levels hp]
    exact filterAtStart_sound u.cfg p
  · have hpoint := hs.points p hp
    have hunused : (s.filter p).declared = .unused := by
      by_contra hu
      simp [hm] at hpoint
      simpa [hm] using (hpoint.used hu).1
    rw [show s.takeImage.filter p = s.filter p from rfl, (hpoint.unused hunused).1]
    exact FilterRecord.sound_of_reset _ p (by simp [State.takeImage, hm])

/-! ## The channels' records (O14) -/

theorem trackBaseline_range {lo baseline count : Nat} (hb : 64 * lo ≤ baseline ∧ baseline ≤ 64 * 65535) (hc : lo ≤ count)
    (hc' : count ≤ 65535) : 64 * lo ≤ trackBaseline baseline count ∧ trackBaseline baseline count ≤ 64 * 65535 := by
  unfold trackBaseline
  by_cases h : baseline ≤ 64 * count
  · rw [Int.tdiv_eq_ediv_of_nonneg (by omega)]
    omega
  · rw [show (64 * (count : Int) - baseline) = -((baseline : Int) - 64 * count) by omega, Int.neg_tdiv,
      Int.tdiv_eq_ediv_of_nonneg (by omega)]
    omega

/-- A captured baseline within its range (R53). -/
def LoopRecord.InRange (cfg : LoopCfg) (r : LoopRecord) : Prop :=
  ∀ cap, r.capture = some cap → 64 * cfg.openFloor ≤ cap.baseline ∧ cap.baseline ≤ 64 * 65535

@[simp] theorem LoopRecord.occupy_capture (r : LoopRecord) (b : Bool) (now : Time) : (r.occupy b now).capture = r.capture := by
  unfold LoopRecord.occupy
  split <;> rfl

theorem LoopRecord.InRange.gate {cfg : LoopCfg} {r : LoopRecord} (h : r.InRange cfg) {count : Nat} (hc : count ≤ 65535)
    (now : Time) : (r.gate cfg count now).1.InRange cfg := by
  intro cap hcap
  unfold LoopRecord.gate at hcap
  split at hcap
  · simp only [LoopRecord.occupy_capture] at hcap
    exact h cap hcap
  · rename_i hopen
    split at hcap
    · cases hcap
      dsimp only
      omega
    · rename_i old hold
      cases hcap
      dsimp only
      split
      · exact trackBaseline_range (h old hold) (by omega) hc
      · exact h old hold

/-- What the station state and the settings ask of a channel's record (R23, R38, R53, R56). -/
def Channel.Sound (mode : StationMode) (cfg : ChannelCfg) (c : Channel) : Prop :=
  match c with
  | .off r r' => Channel.off r r' = Channel.reset
  | .lamp _ => mode = .run
  | .loop r => mode = .run ∧ ∀ l, cfg = .loop l → r.InRange l

theorem State.baselineOk_iff (s : State) (n : Nat) : s.baselineOk n = true ↔ (s.channel n).Sound s.mode (s.cfg.channel n) := by
  unfold State.baselineOk
  cases hr : s.channel n with
  | off lamp loop => simp [Channel.Sound]
  | lamp r => simp [Channel.Sound]
  | loop r =>
    cases hc : s.cfg.channel n <;> cases hcap : r.capture <;> simp [Channel.Sound, LoopRecord.InRange, hcap]

theorem ChannelStep.sound {mode : StationMode} {cfg : ChannelCfg} {r r' : Channel} (h : ChannelStep cfg r r')
    (hr : r.Sound mode cfg) : r'.Sound mode cfg := by
  cases h with
  | same => exact hr
  | lamp x y => exact hr
  | gate l hl x count now =>
    refine ⟨hr.1, fun l' hl' => ?_⟩
    obtain rfl : l = l' := ChannelCfg.loop.inj (hl.symm.trans hl')
    exact (hr.2 l hl).gate (Nat.min_le_left _ _) now

/-- Every channel's record. -/
def State.ChannelsSound (s : State) : Prop := ∀ n < 16, (s.channel n).Sound s.mode (s.cfg.channel n)

theorem State.baselinesOk_iff (s : State) : s.baselinesOk = true ↔ s.ChannelsSound := by
  simp [State.baselinesOk, State.ChannelsSound, State.baselineOk_iff]

theorem State.ChannelsSound.of_step {s u : State} (hs : s.ChannelsSound) (h : s.ChannelsStep u) (hm : u.mode = s.mode)
    (hc : u.cfg = s.cfg) : u.ChannelsSound := by
  intro n hn
  rw [hm, hc]
  exact (h n).sound (hs n hn)

theorem State.ChannelsSound.of_eq {s u : State} (hs : s.ChannelsSound) (h : u.channels = s.channels) (hm : u.mode = s.mode)
    (hc : u.cfg = s.cfg) : u.ChannelsSound := hs.of_step (.of_eq h) hm hc

theorem State.Move.channelsSound {s u : State} (h : State.Move s u) (hs : s.ChannelsSound) : u.ChannelsSound := by
  cases h with
  | channel n r h =>
    refine hs.of_step (fun i => ?_) rfl rfl
    rw [State.channel_setChannel]
    split
    · rename_i hi
      exact hi.1 ▸ h
    · exact .same _
  | aside h hc => exact hs.of_step hc h.mode h.cfg
  | county h => exact hs.of_eq rfl rfl rfl
  | evidence p f h hd => exact hs.of_eq rfl rfl rfl
  | declares p f h hk => exact hs.of_eq rfl rfl rfl
  | trunk t h => exact hs.of_eq rfl rfl rfl
  | saves e he hl hn => exact hs.of_eq rfl rfl rfl
  | returns l rest h => exact hs.of_eq rfl rfl rfl
  | sets l hl h => exact hs.of_eq rfl rfl rfl

theorem channelAtStart_sound (cfg : Settings) (levels : BitVec 8) (n : Nat) :
    (channelAtStart cfg levels n).Sound .run (cfg.channel n) := by
  unfold channelAtStart
  split
  · rfl
  · rfl
  · exact ⟨rfl, fun l _ cap hcap => by cases hcap⟩

/-- A channel's record outside RUN is as reset left it, under any settings. -/
theorem Channel.Sound.change {mode : StationMode} {cfg : ChannelCfg} {r : Channel} (h : r.Sound mode cfg) (hm : mode ≠ .run)
    (cfg' : ChannelCfg) : r.Sound mode cfg' := by
  cases r with
  | off lamp loop => exact h
  | lamp r => exact absurd h hm
  | loop r => exact absurd h.1 hm

/-- Settles O14: a gate alone moves a captured baseline, and it tracks toward a count of the open floor at least. -/
theorem baselinesStayInRange : Obligations.BaselinesStayInRange := by
  unfold Obligations.BaselinesStayInRange
  intro s t hs h
  rw [State.baselinesOk_iff] at hs ⊢
  refine step_keeps_of_moves (fun _ _ => State.Move.channelsSound) (fun s t h hc hs => hs.of_step hc h.mode h.cfg)
    (fun s hs => hs.of_eq rfl rfl rfl)
    (fun s t _ hs => hs.of_eq rfl rfl rfl) (fun t ht n _ => ?_) (fun s u count levels _ _ _ _ n hn => ?_)
    (fun s hm hs n hn => (hs n hn).change (by simp [hm]) _) hs h
  · rw [State.channel, ht.channels, show State.reset.channels = Vector.replicate 16 Channel.reset from rfl, tget_replicate]
    rfl
  · have hchannel : (u.runBlocks count levels).channel n = channelAtStart u.cfg levels n := by
      simp [State.channel, State.runBlocks, tget, hn]
    rw [hchannel]
    exact channelAtStart_sound u.cfg levels n

end Sys2Proof.Machine

/-! Own entries: whose they are, and that a point in FAULT or INHIBITED has its own (R16, R22, R84, R104). -/

namespace Sys2Proof.Machine

/-! ## Finding an entry after a change -/

/-- A change that keeps keys changes what is found. -/
theorem findEntry_map {v : List Entry} {g : Entry → Entry} (hg : ∀ e ∈ v, (g e).origin = e.origin ∧ (g e).point = e.point)
    (o p : Nat) : findEntry (v.map g) o p = (findEntry v o p).map g := by
  have hkey : ∀ e ∈ v, (g e).hasKey o p = e.hasKey o p := fun e he => by simp [Entry.hasKey, hg e he]
  induction v with
  | nil => rfl
  | cons x v ih =>
    have hx := hkey x List.mem_cons_self
    simp only [findEntry] at ih
    simp only [findEntry, List.map_cons, List.find?_cons, hx]
    cases x.hasKey o p with
    | true => rfl
    | false => exact ih (fun e he => hg e (List.mem_cons_of_mem x he)) (fun e he => hkey e (List.mem_cons_of_mem x he))

/-- An entry that is found and not left out is still found. -/
theorem findEntry_filter {v : List Entry} {f : Entry → Bool} {o p : Nat} {e : Entry} (h : findEntry v o p = some e)
    (hf : f e = true) : findEntry (v.filter f) o p = some e := by
  induction v with
  | nil => cases h
  | cons x v ih =>
    simp only [findEntry, List.find?_cons] at h ih
    cases hx : x.hasKey o p with
    | true =>
      rw [hx] at h
      cases h
      simp [findEntry, hf, hx]
    | false =>
      rw [hx] at h
      have htail := ih h
      cases hfx : f x <;> simpa [findEntry, hx, hfx] using htail

/-! ## Room for own entries (R104) -/

theorem viewOrdered_pairwise {v : List Entry} (h : viewOrdered v = true) :
    v.Pairwise fun a b => keyLt a.origin a.point b.origin b.point = true := by
  induction v with
  | nil => exact List.Pairwise.nil
  | cons x v ih => exact List.pairwise_cons.mpr ⟨viewOrdered_head h, ih (viewOrdered_tail h)⟩

/-- Entries of one origin at points 0..31, no key twice, are 32 at most. -/
theorem length_le_of_one_origin {v : List Entry} {o : Nat} (hv : viewOrdered v = true)
    (ho : ∀ e ∈ v, e.origin = o ∧ e.point < 32) : v.length ≤ 32 := by
  have hnodup : (v.map (·.point)).Nodup := by
    refine List.pairwise_map.mpr ((viewOrdered_pairwise hv).imp_of_mem fun {a b} ha hb hlt => ?_)
    rw [keyLt_iff] at hlt
    have := (ho a ha).1
    have := (ho b hb).1
    omega
  have hsubset : v.map (·.point) ⊆ List.range 32 := by
    intro p hp
    obtain ⟨e, he, rfl⟩ := List.mem_map.mp hp
    exact List.mem_range.mpr (ho e he).2
  simpa using (List.Nodup.subperm hnodup hsubset).length_le

theorem firstBy_isSome {before : Entry → Entry → Bool} : ∀ {l : List Entry}, l ≠ [] → firstBy before l ≠ none
  | [], h => absurd rfl h
  | e :: es, _ => by
    unfold firstBy
    split
    · simp
    · split <;> simp

/-- A creation of an own entry finds an entry to evict unless every entry is own (R104). -/
theorem evictionChoice_own_none {now : Time} {v : List Entry} (h : evictionChoice now v none = none) :
    ∀ e ∈ v, e.own = true := by
  intro e he
  by_contra hown
  simp only [evictionChoice] at h
  split at h
  · cases h
  · refine firstBy_isSome (fun hnil => ?_) h
    have hmem : e ∈ (v.filter fun e => !e.own).filter fun _ => true := by simpa [he] using hown
    rw [hnil] at hmem
    cases hmem

/-! ## Whose entries the view holds -/

/-- Own entries are this station's at points 0..31 in RUN alone; the others are of other origins, and LOCAL_ONLY above point
31 (R84, R151, R186). -/
structure Entry.Owned (mode : StationMode) (number : Nat) (e : Entry) : Prop where
  mine : e.own = true → mode = .run ∧ e.origin = number ∧ e.point < 32
  others : e.own = false → e.origin ≠ number ∧ (e.localOnly = true ∨ e.point < 32)

/-- A declared state that asks for an own entry. -/
def Declared.Stands (d : Declared) : Prop := d ≠ .unused ∧ d ≠ .normal

/-- The own entry of a point as its declared state asks for it (R16). -/
def OwnShown (view : List Entry) (number p : Nat) (d : Declared) : Prop :=
  d.Stands → ∃ e, findEntry view number p = some e ∧ e.own = true ∧ e.Shows d

/-- View and declared states together, outside RUN every point UNUSED. -/
structure County.OwnersSound (mode : StationMode) (number : Nat) (d : Nat → Declared) (k : County) : Prop where
  view : k.ViewOk
  owned : ∀ e ∈ k.view, e.Owned mode number
  shown : ∀ p < 32, OwnShown k.view number p (d p)
  unused : mode = .run ∨ ∀ p < 32, d p = .unused

theorem Entry.Follows.owned {c : Ctx} {e e' : Entry} {mode : StationMode} (h : e.Follows c e') (he : e.Owned mode c.number) :
    e'.Owned mode c.number := by
  refine ⟨fun hown => ?_, fun hown => ?_⟩
  · rw [h.origin, h.point]
    exact he.mine (h.own ▸ hown)
  · rw [h.origin, h.point, h.localOnly]
    exact he.others (h.own ▸ hown)

theorem Entry.Shows.state_ne {e : Entry} {d : Declared} (h : e.Shows d) (hd : d.Stands) :
    e.state ≠ .retired ∧ e.state ≠ .cleared := by
  cases d with
  | unused => exact absurd rfl hd.1
  | normal => exact absurd rfl hd.2
  | fault k => simp [h.1]
  | inhibited => simp [show e.state = _ from h]

theorem Entry.Follows.shows {c : Ctx} {e e' : Entry} (h : e.Follows c e') (ho : e.origin = c.number) {d : Declared}
    (hd : d.Stands) (he : e.Shows d) : e'.Shows d := by
  obtain ⟨hkind, hstate⟩ := h.standing ho
  have hstate := hstate.resolve_right (he.state_ne hd).2
  cases d with
  | unused => trivial
  | normal => trivial
  | fault k => exact ⟨hstate.trans he.1, hkind.trans he.2⟩
  | inhibited => exact hstate.trans he

/-- What a creation makes of the entries: the new one, and others that stood; those of an origin none of whose entries can be
evicted are found as before. -/
theorem createEntry_find {c : Ctx} {e : Entry} {v : ViewSide} {o p : Nat} (hkey : ¬ (e.origin = o ∧ e.point = p))
    (hown : ∀ x ∈ v.view, x.own = false → x.origin ≠ o) {y : Entry} (h : findEntry v.view o p = some y) :
    findEntry (createEntry c e v).1.view o p = some y := by
  rcases createEntry_cases c e v with ⟨heq, -⟩ | ⟨x, hx, heq, -⟩ | ⟨-, heq, -⟩
  · rw [heq]
    exact (findEntry_putEntry_ne _ e hkey).trans h
  · obtain ⟨hmem, hnot⟩ := evictionChoice_mem hx
    have hkept : findEntry (removeEntry v.view x.origin x.point) o p = some y := by
      refine findEntry_filter h ?_
      obtain ⟨-, ho, -⟩ := findEntry_mem h
      have hne : y.origin ≠ x.origin := fun heq => hown x hmem hnot (heq.symm.trans ho)
      simp [Entry.hasKey, hne]
    rw [heq]
    exact (findEntry_putEntry_ne _ e hkey).trans hkept
  · rw [heq]
    exact h

theorem mem_createEntry {c : Ctx} {e y : Entry} {v : ViewSide} (h : y ∈ (createEntry c e v).1.view) : y = e ∨ y ∈ v.view := by
  rcases createEntry_cases c e v with ⟨heq, -⟩ | ⟨x, -, heq, -⟩ | ⟨-, heq, -⟩
  · rw [heq] at h
    exact mem_putEntry h
  · rw [heq] at h
    exact (mem_putEntry h).imp_right fun h => (List.mem_filter.mp h).1
  · rw [heq] at h
    exact .inr h

/-- The creation of an own entry succeeds: not every entry of a full view is own. -/
theorem createEntry_own_find {c : Ctx} {e : Entry} {v : ViewSide} {mode : StationMode} (hown : e.own = true)
    (hordered : viewOrdered v.view = true) (howned : ∀ x ∈ v.view, x.Owned mode c.number) :
    findEntry (createEntry c e v).1.view e.origin e.point = some e := by
  rcases createEntry_cases c e v with ⟨heq, -⟩ | ⟨x, -, heq, -⟩ | ⟨hnone, heq, hfull⟩
  · rw [heq]
    exact findEntry_putEntry_self _ e
  · rw [heq]
    exact findEntry_putEntry_self _ e
  · rw [hown] at hnone
    have hall := evictionChoice_own_none (by simpa using hnone)
    have := length_le_of_one_origin (o := c.number) hordered fun x hx => ((howned x hx).mine (hall x hx)).2
    simp only [viewCapacity] at hfull
    omega

variable {mode : StationMode} {d : Nat → Declared} {c : Ctx} {k k' : County}

/-- The moves of the county side keep whose entries the view holds. -/
theorem County.Move.ownersSound (h : County.Move c k k') (hk : k.OwnersSound mode c.number d) :
    k'.OwnersSound mode c.number d := by
  have hview := h.viewOk hk.view
  obtain ⟨-, howned, hshown, hunused⟩ := hk
  cases h with
  | rest hv hq => exact ⟨hview, hv ▸ howned, hv ▸ hshown, hunused⟩
  | queue h => exact ⟨hview, howned, hshown, hunused⟩
  | entries g hg =>
    refine ⟨hview, fun y hy => ?_, fun p hp hd => ?_, hunused⟩
    · obtain ⟨e, he, rfl⟩ := List.mem_map.mp hy
      exact (hg e he).owned (howned e he)
    · obtain ⟨e, hfind, hown, hshows⟩ := hshown p hp hd
      obtain ⟨hmem, horigin, -⟩ := findEntry_mem hfind
      refine ⟨g e, ?_, (hg e hmem).own.trans hown, (hg e hmem).shows horigin hd hshows⟩
      rw [findEntry_map fun e he => ⟨(hg e he).origin, (hg e he).point⟩, hfind]
      rfl
  | replaces o p e e' ho he h =>
    obtain ⟨hmem, horigin, hpoint⟩ := findEntry_mem he
    have hkeeps : ∀ x ∈ k.view, (if x.hasKey o p = true then e' else x).origin = x.origin ∧
        (if x.hasKey o p = true then e' else x).point = x.point := by
      intro x _
      split
      · rename_i hx
        obtain ⟨hxo, hxp⟩ := (x.hasKey_iff o p).mp hx
        exact ⟨by rw [h.origin, horigin, hxo], by rw [h.point, hpoint, hxp]⟩
      · exact ⟨rfl, rfl⟩
    refine ⟨hview, fun y hy => ?_, fun q hq hd => ?_, hunused⟩
    · obtain ⟨x, hx, rfl⟩ := List.mem_map.mp hy
      split
      · exact h.owned (howned e hmem)
      · exact howned x hx
    · obtain ⟨x, hfind, hown, hshows⟩ := hshown q hq hd
      obtain ⟨-, hxo, -⟩ := findEntry_mem hfind
      have hother : x.hasKey o p = false := by simp [Entry.hasKey, hxo, Ne.symm ho]
      refine ⟨x, ?_, hown, hshows⟩
      rw [updateEntry, findEntry_map hkeeps, hfind]
      simp [hother]
  | expires f h =>
    refine ⟨hview, fun y hy => howned y (List.mem_filter.mp hy).1, fun p hp hd => ?_, hunused⟩
    obtain ⟨e, hfind, hown, hshows⟩ := hshown p hp hd
    refine ⟨e, findEntry_filter hfind ?_, hown, hshows⟩
    by_contra hf
    exact (hshows.state_ne hd).1 (h e (findEntry_mem hfind).1 (Bool.eq_false_iff.mpr hf))
  | creates e hn h =>
    refine ⟨hview, fun y hy => ?_, fun p hp hd => ?_, hunused⟩
    · rcases mem_createEntry hy with rfl | hy
      · exact ⟨fun hown => by simp [h.own] at hown, fun _ => ⟨h.origin, h.reach⟩⟩
      · exact howned y hy
    · obtain ⟨y, hfind, hown, hshows⟩ := hshown p hp hd
      exact ⟨y, createEntry_find (fun hkey => h.origin hkey.1) (fun x hx hx' => ((howned x hx).others hx').1) hfind, hown,
        hshows⟩

/-- An own change stores the entry the new declared state asks for, and leaves the other own entries. -/
theorem County.putOwn_ownersSound {p : Nat} {e : Entry} {x : Declared} (hk : k.OwnersSound mode c.number d)
    (hrun : mode = .run) (h : e.StoredFor c k.view p) (hshows : e.Shows x) :
    (k.putOwn c e).OwnersSound mode c.number fun q => if q = p then x else d q := by
  have hview := County.putOwn_viewOk (c := c) e hk.view
  obtain ⟨⟨hlength, hordered⟩, howned, hshown, -⟩ := hk
  have hown : e.own = true := by
    rcases h.own with hown | ⟨old, hold, horigin, hown⟩
    · exact hown
    · rw [hown]
      by_contra hnot
      exact ((howned old hold).others (Bool.eq_false_iff.mpr hnot)).1 horigin
  have howns : e.Owned mode c.number :=
    ⟨fun _ => ⟨hrun, h.origin, h.point ▸ h.reach⟩, fun hnot => by simp [hown] at hnot⟩
  have hstored : findEntry (k.putOwn c e).view e.origin e.point = some e := by
    unfold County.putOwn
    split
    · exact findEntry_putEntry_self _ e
    · exact createEntry_own_find hown hordered howned
  have hkept : ∀ {q : Nat} {y : Entry}, q ≠ p → findEntry k.view c.number q = some y →
      findEntry (k.putOwn c e).view c.number q = some y := by
    intro q y hq hfind
    have hkey : ¬ (e.origin = c.number ∧ e.point = q) := fun hkey => hq (hkey.2.symm.trans h.point)
    unfold County.putOwn
    split
    · exact (findEntry_putEntry_ne _ e hkey).trans hfind
    · exact createEntry_find hkey (fun x hx hx' => ((howned x hx).others hx').1) hfind
  refine ⟨hview, fun y hy => ?_, fun q hq hd => ?_, .inl hrun⟩
  · have hy : y = e ∨ y ∈ k.view := by
      unfold County.putOwn at hy
      split at hy
      · exact mem_putEntry hy
      · exact mem_createEntry hy
    rcases hy with rfl | hy
    · exact howns
    · exact howned y hy
  · split
    · rename_i hqp
      exact ⟨e, by rw [← h.origin, hqp, ← h.point]; exact hstored, hown, hshows⟩
    · rename_i hqp
      rw [if_neg hqp] at hd
      obtain ⟨y, hfind, hyown, hyshows⟩ := hshown q hq hd
      exact ⟨y, hkept hqp hfind, hyown, hyshows⟩

/-! ## The whole state (O21) -/

/-- The declared states of the points. -/
def State.declaredAt (s : State) (p : Nat) : Declared := (s.filter p).declared

/-- Whose entries the view holds, and that each declared state has its own entry. -/
def State.OwnersSound (s : State) : Prop := s.toCounty.OwnersSound s.mode s.number s.declaredAt

theorem State.declaredAt_setFilter (s : State) (p : Nat) (f : FilterRecord) (hp : p < 32) :
    (s.setFilter p f).declaredAt = fun q => if q = p then f.declared else s.declaredAt q := by
  funext q
  rw [State.declaredAt, State.filter_setFilter]
  by_cases hq : q = p
  · simp [hq, hp]
  · simp [hq, Ne.symm hq, State.declaredAt]

theorem State.OwnersSound.of_eq {s u : State} (hs : s.OwnersSound) (hv : u.view = s.view) (hm : u.mode = s.mode)
    (hn : u.number = s.number) (hf : u.filters = s.filters) : u.OwnersSound := by
  have hd : u.declaredAt = s.declaredAt := by
    funext p
    simp [State.declaredAt, State.filter, hf]
  obtain ⟨⟨hlength, hordered⟩, howned, hshown, hunused⟩ := hs
  unfold State.OwnersSound
  rw [hd, hm, hn]
  exact ⟨⟨hv ▸ hlength, hv ▸ hordered⟩, hv ▸ howned, hv ▸ hshown, hunused⟩

theorem State.OwnersSound.run_of_used {s : State} (hs : s.OwnersSound) {p : Nat} (h : (s.filter p).declared ≠ .unused) :
    s.mode = .run := hs.unused.resolve_right fun hunused => h (hunused p (filter_lt_of_used h))

theorem State.Move.ownersSound {s u : State} (h : State.Move s u) (hs : s.OwnersSound) : u.OwnersSound := by
  have hcounty : ∀ {d : Nat → Declared} {k k' : County}, County.Moves s.ctx k k' → k.OwnersSound s.mode s.number d →
      k'.OwnersSound s.mode s.number d :=
    fun {d} _ _ hm => County.Moves.keeps (P := fun k => k.OwnersSound s.mode s.number d) (fun _ _ h => h.ownersSound) hm
  cases h with
  | county h => exact h.ownersSound (c := s.ctx) hs
  | evidence p f h hd =>
    unfold State.OwnersSound
    rw [State.declaredAt_setFilter s p f (filter_lt_of_used h.used), hd]
    refine cast (congrArg (County.OwnersSound s.mode s.number · s.toCounty) ?_) hs
    funext q
    split
    · rename_i hq
      rw [hq, State.declaredAt]
    · rfl
  | declares p f h hk =>
    obtain ⟨k₁, e, hbefore, hstored, hshows, hafter⟩ := hk
    have hput := County.putOwn_ownersSound (c := s.ctx) (hcounty hbefore hs) (hs.run_of_used h.used) hstored hshows
    rw [← State.declaredAt_setFilter s p f (filter_lt_of_used h.used)] at hput
    exact hcounty hafter hput
  | aside h hc => exact hs.of_eq h.view h.mode h.number h.filters
  | channel n r h => exact hs
  | trunk t h => exact hs
  | saves e he hl hn => exact hs
  | returns l rest h => exact hs
  | sets l hl h => exact hs

/-- Outside RUN and LISTEN the view and the queue are empty (R110, R143). -/
def State.IdleEmpty (s : State) : Prop := s.live = true ∨ s.view = [] ∧ s.queue = []

theorem State.Move.mode_eq {s u : State} (h : State.Move s u) : u.mode = s.mode := by
  cases h with
  | aside h hc => exact h.mode
  | _ => rfl

theorem State.Moves.live_eq {s u : State} (h : s.Moves u) : u.live = s.live := by
  have hmode : u.mode = s.mode :=
    h.keeps (P := fun u => u.mode = s.mode) (fun _ _ hm heq => hm.mode_eq.trans heq) rfl
  simp [State.live, hmode]

theorem State.SameBlocks.ownersSound {s u : State} (h : s.SameBlocks u) (hs : s.OwnersSound ∧ s.IdleEmpty) :
    u.OwnersSound ∧ u.IdleEmpty := by
  refine ⟨hs.1.of_eq h.view h.mode h.number h.filters, ?_⟩
  rw [State.IdleEmpty, h.view, h.queue, State.live, h.mode]
  exact hs.2

/-- Every event keeps whose entries the view holds, and the view and the queue empty where the station does not work. -/
theorem State.Event.ownersSound {s t : State} (h : State.Event s t) (hs : s.OwnersSound ∧ s.IdleEmpty) :
    t.OwnersSound ∧ t.IdleEmpty := by
  have hmoves : ∀ {u : State}, s.Moves u → u.OwnersSound := fun h => h.keeps (fun _ _ => State.Move.ownersSound) hs.1
  cases h with
  | @settled u h ho =>
    have hlive := h.live_eq
    refine ⟨(hmoves h).of_eq rfl rfl rfl rfl, ?_⟩
    rcases hs.2 with hl | ⟨hv, hq⟩
    · exact .inl (hlive.trans hl)
    · rcases ho with (hl | hq' | ⟨p, hp⟩) | ⟨hv', hq'⟩
      · exact .inl (hlive.trans hl)
      · exact absurd hq hq'
      · exact .inl (hlive.trans (by simp [State.live, hs.1.run_of_used hp]))
      · exact .inr ⟨hv'.trans hv, hq'.trans hq⟩
  | aside h hc => exact h.ownersSound hs
  | trunk t h => exact hs
  | flushed hl hd h => exact ⟨hmoves (State.Moves.county (County.Moves.queue h)), .inl hl⟩

/-- Blocks that have been reset hold no entry, and ask for none. -/
theorem State.OwnersSound.of_empty {s : State} (hv : s.view = []) (hd : ∀ p < 32, ¬ (s.declaredAt p).Stands)
    (hu : s.mode = .run ∨ ∀ p < 32, s.declaredAt p = .unused) : s.OwnersSound :=
  ⟨by simp [County.ViewOk, hv, viewOrdered], by simp [hv], fun p hp hs => absurd hs (hd p hp), hu⟩

/-- Resets and starts keep it too. -/
theorem State.Change.ownersSound {s t : State} (h : State.Change s t) (hs : s.OwnersSound ∧ s.IdleEmpty) :
    t.OwnersSound ∧ t.IdleEmpty := by
  cases h with
  | event h => exact h.ownersSound hs
  | apart h hc => exact h.ownersSound hs
  | blank h =>
    have hunused : ∀ p, t.declaredAt p = .unused := fun p => by rw [State.declaredAt, filter_reset h.filters]
    exact ⟨.of_empty h.view (fun p _ hd => hd.1 (hunused p)) (.inr fun p _ => hunused p), .inr ⟨h.view, h.queue⟩⟩
  | @starts u hm hcfg hnumber count levels =>
    have hblocks : (u.runBlocks count levels).OwnersSound := by
      refine .of_empty rfl (fun p hp hd => ?_) (.inl rfl)
      rw [State.declaredAt, runBlocks_filter u count levels hp, filterAtStart, Declared.Stands] at hd
      split at hd <;> simp at hd
    have hmoved := State.presence_moves (u.runBlocks count levels)
    refine ⟨(hmoved.keeps (fun _ _ => State.Move.ownersSound) hblocks).of_eq rfl rfl rfl rfl, .inl ?_⟩
    exact hmoved.live_eq
  | takesImage hm =>
    have hdead : s.live = false := by simp [State.live, hm]
    have hempty := hs.2.resolve_left (by simp [hdead])
    have hunused := hs.1.unused.resolve_left (by simp [hm])
    exact ⟨.of_empty hempty.1 (fun p hp hd => hd.1 (hunused p hp)) (.inr hunused), .inr hempty⟩

theorem State.ownersOk_iff (s : State) : s.ownersOk = true ↔ (∀ e ∈ s.view, e.Owned s.mode s.number) ∧ s.IdleEmpty := by
  have hentry : ∀ e : Entry, (if e.own then decide (s.mode = .run ∧ e.origin = s.number ∧ e.point < 32)
      else decide (e.origin ≠ s.number) && (e.localOnly || decide (e.point < 32))) = true ↔ e.Owned s.mode s.number := by
    intro e
    cases hown : e.own with
    | true =>
      simp only [if_true, decide_eq_true_eq]
      exact ⟨fun h => ⟨fun _ => h, fun hn => by simp [hown] at hn⟩, fun h => h.mine hown⟩
    | false =>
      simp only [Bool.false_eq_true, if_false, Bool.and_eq_true, decide_eq_true_eq, Bool.or_eq_true]
      exact ⟨fun h => ⟨fun hn => by simp [hown] at hn, fun _ => h⟩, fun h => h.others hown⟩
  simp only [State.ownersOk, State.IdleEmpty, Bool.and_eq_true, Bool.or_eq_true, List.all_eq_true, hentry,
    List.isEmpty_iff]

theorem State.ownEntryOk_iff (s : State) (p : Nat) : s.ownEntryOk p = true ↔
    OwnShown s.view s.number p (s.declaredAt p) := by
  unfold State.ownEntryOk OwnShown State.declaredAt
  cases (s.filter p).declared <;> cases findEntry s.view s.number p <;> simp [Declared.Stands, Entry.Shows, and_assoc]

theorem State.ownEntriesOk_iff (s : State) : s.ownEntriesOk = true ↔
    (∀ p < 32, OwnShown s.view s.number p (s.declaredAt p)) ∧ (s.mode = .run ∨ ∀ p < 32, s.declaredAt p = .unused) := by
  simp only [State.ownEntriesOk, List.all_eq_true, List.mem_range, Bool.and_eq_true, Bool.or_eq_true, decide_eq_true_eq,
    State.ownEntryOk_iff, beq_iff_eq]
  exact ⟨fun h => ⟨fun p hp => (h p hp).1, or_iff_not_imp_left.mpr fun hm p hp => ((h p hp).2.resolve_left hm)⟩,
    fun h p hp => ⟨h.1 p hp, h.2.imp_right fun hu => hu p hp⟩⟩

/-- Settles O21: an own change stores the entry its declared state asks for, for which a full view has room, and nothing else
touches an own entry that stands. -/
theorem faultedPointKeepsItsEntry : Obligations.FaultedPointKeepsItsEntry := by
  unfold Obligations.FaultedPointKeepsItsEntry
  intro s t hview howners hentries h
  rw [State.viewOk_iff] at hview
  rw [State.ownersOk_iff] at howners
  rw [State.ownEntriesOk_iff] at hentries
  obtain ⟨⟨-, howned, hshown, hunused⟩, hempty⟩ := step_keeps (P := fun s => s.OwnersSound ∧ s.IdleEmpty)
    (fun _ _ => State.Change.ownersSound) ⟨⟨hview, howners.1, hentries.1, hentries.2⟩, howners.2⟩ h
  exact ⟨(State.ownersOk_iff t).mpr ⟨howned, hempty⟩, (State.ownEntriesOk_iff t).mpr ⟨hshown, hunused⟩⟩

/-! ## Start counts (O52) -/

/-- LOADING with a sign transaction that waits and a sign point near its onset, on commands that end the transaction. -/
def lateReply : State :=
  { filters := .replicate 32 ⟨.normal, 62, none, 0, 0⟩, slc := ⟨.awaiting, none, false, some 1, [], none, none⟩
    pending := [.replyTimeoutExpiry] }

/-- Refutes O52: its premises leave the filter records and the sign controller free. In LOADING the end of a transaction that
waits declares the sign's point in FAULT, which stores an own entry where none may stand. -/
theorem not_startCountsStayCurrent : ¬ Obligations.StartCountsStayCurrent := by
  unfold Obligations.StartCountsStayCurrent
  intro h
  have hstep : step lateReply = .next { lateReply with pending := [] }.endTransaction := rfl
  have howners : lateReply.ownersOk = true := by decide +kernel
  have hstarts : lateReply.startsOk = true := by decide +kernel
  have hafter : (State.endTransaction { lateReply with pending := [] }).startsOk = false := by decide +kernel
  exact absurd (h _ _ howners hstarts hstep) (by simp [hafter])

end Sys2Proof.Machine

/-! Steps, reset, the stamp order and the dispatch order. -/

namespace Sys2Proof.Machine

/-! ## Steps and reset (O1, O4) -/

/-- Settles O1: by the definition of a step. -/
theorem stepRunsTheFrontCommand : Obligations.StepRunsTheFrontCommand := fun _ _ _ => rfl

theorem rollGet_reset (o : Nat) : (rollGet State.reset.roll o).newest = none := by
  unfold rollGet
  split
  · rw [show State.reset.roll = Vector.replicate 240 ⟨none, 0, 0, false⟩ from rfl, tget_replicate]
  · rfl

/-- Settles O4: the reset state is one closed value; its tables hold one value each. -/
theorem resetLeavesLoadingAndInvariants : Obligations.ResetLeavesLoadingAndInvariants := by
  unfold Obligations.ResetLeavesLoadingAndInvariants
  refine ⟨⟨rfl, rfl, rfl, rfl, rfl, rfl, rfl, rfl, rfl, rfl, rfl, rfl, fun p => ⟨?_, ?_⟩, rollGet_reset, fun n => ?_, rfl, rfl,
    rfl, rfl⟩, ?_⟩
  · exact filter_reset rfl p
  · exact tget_replicate _ p
  · exact tget_replicate _ n
  · decide +kernel

/-! ## Stamps (O43) -/

theorem countNewer_iff (a b : Half) : countNewer a b = true ↔ 1 ≤ (a - b).toNat ∧ (a - b).toNat ≤ 32767 := by
  simp [countNewer]

/-- The two differences of a pair of counts add up to 65536, or the counts are the same. -/
theorem half_sub_comm (a b : Half) : a = b ∨ (a - b).toNat + (b - a).toNat = 65536 := by
  by_cases h : a = b
  · exact .inl h
  · have hne : a.toNat ≠ b.toNat := fun h' => h (BitVec.eq_of_toNat_eq h')
    have := a.isLt
    have := b.isLt
    simp only [BitVec.toNat_sub]
    omega

theorem countNewer_asymm {a b : Half} (h : countNewer a b = true) : countNewer b a = false := by
  rw [Bool.eq_false_iff, ne_eq, countNewer_iff]
  rw [countNewer_iff] at h
  rcases half_sub_comm a b with rfl | hsum
  · simp at h
  · omega

/-- Neither of two counts that differ is newer just where they stand half the range apart. -/
theorem half_apart {a b : Half} (hne : a ≠ b) (h : countNewer a b = false) (h' : countNewer b a = false) :
    (a - b).toNat = 32768 := by
  rw [Bool.eq_false_iff, ne_eq, countNewer_iff] at h h'
  have := (half_sub_comm a b).resolve_left hne
  have := (a - b).isLt
  have := (b - a).isLt
  omega

theorem countTakenNewer_iff (a b : Half) :
    countTakenNewer a b = true ↔ countNewer a b = true ∨ a ≠ b ∧ countNewer b a = false := by
  simp only [Bool.eq_false_iff, ne_eq, countNewer_iff, countTakenNewer, decide_eq_true_eq]
  by_cases h : a = b
  · subst h
    simp
  · have := (half_sub_comm a b).resolve_left h
    have := (a - b).isLt
    have := (b - a).isLt
    simp only [h, not_false_eq_true, true_and]
    omega

theorem Stamp.ne_iff_of_start_eq {a b : Stamp} (h : a.start = b.start) : a ≠ b ↔ a.change ≠ b.change := by
  obtain ⟨s, c⟩ := a
  obtain ⟨s', c'⟩ := b
  cases h
  simp

/-- Settles O43: one count decides each comparison, the change number only under equal start counts. -/
theorem stampOrderIsSerial : Obligations.StampOrderIsSerial := by
  unfold Obligations.StampOrderIsSerial
  refine ⟨fun a b => ?_, fun a b h => ?_, fun a b hne h h' => ?_, fun a b => ?_, by decide, by decide⟩
  · by_cases hs : a.start = b.start
    · simp [Stamp.newer, hs, countNewer_iff]
    · simp [Stamp.newer, hs, countNewer_iff]
  · by_cases hs : a.start = b.start
    · simp only [Stamp.newer, hs, if_true] at h ⊢
      exact countNewer_asymm h
    · simp only [Stamp.newer, hs, Ne.symm hs, if_false] at h ⊢
      exact countNewer_asymm h
  · by_cases hs : a.start = b.start
    · rw [Stamp.ne_iff_of_start_eq hs] at hne
      simp only [Stamp.newer, hs, if_true] at h h'
      exact .inr ⟨hs, half_apart hne h h'⟩
    · simp only [Stamp.newer, hs, Ne.symm hs, if_false] at h h'
      exact .inl (half_apart hs h h')
  · by_cases hs : a.start = b.start
    · rw [Stamp.ne_iff_of_start_eq hs]
      simpa only [Stamp.takenNewer, Stamp.newer, hs, if_true] using countTakenNewer_iff a.change b.change
    · have hne : a ≠ b := fun h => hs (congrArg Stamp.start h)
      simp only [Stamp.takenNewer, Stamp.newer, hs, Ne.symm hs, if_false, hne, ne_eq, not_false_eq_true, true_and,
        countTakenNewer_iff]

/-! ## The dispatch order (O44) -/

/-- The dispatch order as one relation: group, then severity, age and key. -/
def DispatchLt (now : Time) (a b : Entry) : Prop :=
  a.group.getD 5 < b.group.getD 5 ∨ a.group.getD 5 = b.group.getD 5 ∧
    (b.severity < a.severity ∨ a.severity = b.severity ∧
      (b.age now < a.age now ∨ a.age now = b.age now ∧ keyLt a.origin a.point b.origin b.point = true))

theorem dispatchBefore_iff (now : Time) (a b : Entry) : dispatchBefore now a b = true ↔ DispatchLt now a b := by
  simp only [dispatchBefore, DispatchLt]
  by_cases hg : a.group.getD 5 = b.group.getD 5
  · by_cases hs : a.severity = b.severity
    · by_cases ha : a.age now = b.age now <;> simp [hg, hs, ha]
    · simp [hg, hs]
  · simp [hg]

theorem DispatchLt.trans {now : Time} {a b x : Entry} (h : DispatchLt now a b) (h' : DispatchLt now b x) :
    DispatchLt now a x := by
  simp only [DispatchLt, keyLt_iff] at h h' ⊢
  omega

/-- Of two entries of different keys one stands before the other. -/
theorem DispatchLt.total {now : Time} {a b : Entry} (h : keyLt a.origin a.point b.origin b.point = true)
    (hn : ¬ DispatchLt now a b) : DispatchLt now b a := by
  simp only [DispatchLt, keyLt_iff] at h hn ⊢
  omega

theorem dispatchInsert_perm (now : Time) (e : Entry) (l : List Entry) : (dispatchInsert now e l).Perm (e :: l) := by
  induction l with
  | nil => exact .refl _
  | cons x l ih =>
    rw [dispatchInsert]
    split
    · exact .refl _
    · exact (ih.cons x).trans (.swap e x l)

theorem dispatchInsert_pairwise {now : Time} {e : Entry} {l : List Entry} (hl : l.Pairwise (DispatchLt now))
    (he : ∀ x ∈ l, keyLt e.origin e.point x.origin x.point = true) : (dispatchInsert now e l).Pairwise (DispatchLt now) := by
  induction l with
  | nil => exact List.pairwise_singleton _ e
  | cons x l ih =>
    obtain ⟨hx, hl'⟩ := List.pairwise_cons.mp hl
    rw [dispatchInsert]
    split
    · rename_i hbefore
      rw [dispatchBefore_iff] at hbefore
      refine List.pairwise_cons.mpr ⟨fun y hy => ?_, hl⟩
      rcases List.mem_cons.mp hy with rfl | hy
      · exact hbefore
      · exact hbefore.trans (hx y hy)
    · rename_i hnot
      rw [dispatchBefore_iff] at hnot
      refine List.pairwise_cons.mpr ⟨fun y hy => ?_, ih hl' fun y hy => he y (List.mem_cons_of_mem x hy)⟩
      rcases List.mem_cons.mp ((dispatchInsert_perm now e l).mem_iff.mp hy) with rfl | hy
      · exact DispatchLt.total (he x List.mem_cons_self) hnot
      · exact hx y hy

theorem Entry.group_isSome_iff (e : Entry) : e.group.isSome = (e.state != .retired) := by
  unfold Entry.group
  cases e.state <;> cases e.ack <;> rfl

/-- Sorting by insertion keeps the entries and puts each pair in order. -/
theorem foldr_dispatchInsert {now : Time} {l : List Entry}
    (hl : l.Pairwise fun a b => keyLt a.origin a.point b.origin b.point = true) :
    (l.foldr (dispatchInsert now) []).Perm l ∧ (l.foldr (dispatchInsert now) []).Pairwise (DispatchLt now) := by
  induction l with
  | nil => exact ⟨.refl _, List.Pairwise.nil⟩
  | cons x l ih =>
    obtain ⟨hx, hl'⟩ := List.pairwise_cons.mp hl
    obtain ⟨hperm, hpair⟩ := ih hl'
    exact ⟨(dispatchInsert_perm now x _).trans (hperm.cons x),
      dispatchInsert_pairwise hpair fun y hy => hx y (hperm.mem_iff.mp hy)⟩

/-- Settles O44: insertion into an order that is total on different keys. -/
theorem dispatchOrderRanksEntries : Obligations.DispatchOrderRanksEntries := by
  unfold Obligations.DispatchOrderRanksEntries
  intro now v hv
  obtain ⟨hperm, hpair⟩ := foldr_dispatchInsert (now := now)
    ((viewOrdered_pairwise hv).sublist (List.filter_sublist (p := fun e => e.group.isSome)))
  have hgroup : ∀ e : Entry, e.group.getD 5 = (match e.state with
      | .active => if e.ack = none then 1 else 3
      | .cleared => 2
      | .inhibited => 4
      | .retired => 5 : Nat) := by
    intro e
    unfold Entry.group
    cases e.state <;> cases e.ack <;> rfl
  refine ⟨?_, hpair.imp fun {a b} h => ?_⟩
  · simpa only [dispatchOrder, Entry.group_isSome_iff] using hperm
  · simp only [DispatchLt, hgroup, keyLt_iff] at h
    exact h

end Sys2Proof.Machine

/-! What commands leave alone: the memory, the settings, the station state, the clock and the queue of commands; and the
commands whose event cannot occur. -/

namespace Sys2Proof.Machine

variable {s t u : State}

/-! ## What only few commands change -/

/-- The memory, the settings, the station state with its number and reason, the clock and the commands that wait. -/
structure State.Steady (s u : State) : Prop where
  mem : u.mem = s.mem
  cfg : u.cfg = s.cfg
  number : u.number = s.number
  mode : u.mode = s.mode
  listenReason : u.listenReason = s.listenReason
  clock : u.clock = s.clock
  pending : u.pending = s.pending

theorem State.Steady.trans (h : s.Steady u) (h' : u.Steady t) : s.Steady t :=
  ⟨h'.mem.trans h.mem, h'.cfg.trans h.cfg, h'.number.trans h.number, h'.mode.trans h.mode,
    h'.listenReason.trans h.listenReason, h'.clock.trans h.clock, h'.pending.trans h.pending⟩

theorem State.SameCore.steady (h : s.SameCore u) : s.Steady u :=
  ⟨h.mem, h.cfg, h.number, h.mode, h.listenReason, h.clock, h.pending⟩

theorem State.Move.steady (h : State.Move s u) : s.Steady u := by
  cases h with
  | aside h hc => exact h.steady
  | _ => exact ⟨rfl, rfl, rfl, rfl, rfl, rfl, rfl⟩

theorem State.Moves.steady (h : s.Moves u) : s.Steady u :=
  h.keeps (fun _ _ hm hs => State.Steady.trans hs hm.steady) ⟨rfl, rfl, rfl, rfl, rfl, rfl, rfl⟩

theorem State.Event.steady (h : State.Event s t) : s.Steady t := by
  cases h with
  | settled h ho =>
    have hmoves := h.steady
    exact ⟨hmoves.mem, hmoves.cfg, hmoves.number, hmoves.mode, hmoves.listenReason, hmoves.clock, hmoves.pending⟩
  | aside h hc => exact h.steady
  | trunk t h => exact ⟨rfl, rfl, rfl, rfl, rfl, rfl, rfl⟩
  | flushed hl hd h => exact ⟨rfl, rfl, rfl, rfl, rfl, rfl, rfl⟩

theorem State.Events.steady (h : s.Events t) : s.Steady t :=
  h.keeps (fun _ _ he hs => State.Steady.trans hs he.steady) ⟨rfl, rfl, rfl, rfl, rfl, rfl, rfl⟩

theorem exec_steady {i : Instr} (hi : ¬ Instr.Shifts i) (h : exec i s = .next t) : s.Steady t := (exec_events hi h).steady

/-! ## The commands that shift the station -/

/-- The ends of memory writes outside LOADING: everything steady but the memory. -/
structure State.WriteEnded (s t : State) : Prop where
  cfg : t.cfg = s.cfg
  number : t.number = s.number
  pending : t.pending = s.pending

theorem State.nextOperation_pending (s : State) : s.nextOperation.pending = s.pending := by rw [State.nextOperation_eq]
theorem State.nextOperation_cfg (s : State) : s.nextOperation.cfg = s.cfg := by rw [State.nextOperation_eq]
theorem State.nextOperation_number (s : State) : s.nextOperation.number = s.number := by rw [State.nextOperation_eq]
theorem State.nextOperation_mem (s : State) : s.nextOperation.mem = s.mem := by rw [State.nextOperation_eq]
theorem State.nextOperation_mode (s : State) : s.nextOperation.mode = s.mode := by rw [State.nextOperation_eq]
theorem State.nextOperation_listenReason (s : State) : s.nextOperation.listenReason = s.listenReason := by
  rw [State.nextOperation_eq]
theorem State.nextOperation_clock (s : State) : s.nextOperation.clock = s.clock := by rw [State.nextOperation_eq]

theorem State.memoryAfter_writeEnded (s : State) (acked : Bool) (x : Nat) (bs : List Byte) :
    s.WriteEnded (s.memoryAfter acked x bs) := by
  rw [State.memoryAfter_eq]
  exact ⟨rfl, rfl, rfl⟩

theorem State.startWriteEnds_writeEnded (s : State) (count : Half) (acked : Bool) (levels : BitVec 8) :
    s.WriteEnded (s.startWriteEnds count acked levels) ∧
      (s.startWriteEnds count acked levels).mem = (s.memoryAfter acked 504 (startRecord count)).mem := by
  have h := s.memoryAfter_writeEnded acked 504 (startRecord count)
  simp only [State.startWriteEnds]
  split
  · exact ⟨⟨h.cfg, h.number, h.pending⟩, rfl⟩
  · exact ⟨⟨(State.nextOperation_cfg _).trans h.cfg, (State.nextOperation_number _).trans h.number,
      (State.nextOperation_pending _).trans h.pending⟩, State.nextOperation_mem _⟩

theorem State.configWriteEnds_writeEnded (s : State) (w : ConfigWrite) (acked : Bool) :
    s.WriteEnded (s.configWriteEnds w acked) ∧
      (s.configWriteEnds w acked).mem = (s.memoryAfter acked w.offset w.bytes).mem := by
  have h := s.memoryAfter_writeEnded acked w.offset w.bytes
  exact ⟨⟨(State.nextOperation_cfg _).trans h.cfg, (State.nextOperation_number _).trans h.number,
    (State.nextOperation_pending _).trans h.pending⟩, State.nextOperation_mem _⟩

theorem State.configWriteEnds_mode (s : State) (w : ConfigWrite) (acked : Bool) :
    (s.configWriteEnds w acked).mode = s.mode ∧ (s.configWriteEnds w acked).listenReason = s.listenReason ∧
      (s.configWriteEnds w acked).clock = s.clock := by
  unfold State.configWriteEnds
  rw [State.memoryAfter_eq]
  exact ⟨State.nextOperation_mode _, State.nextOperation_listenReason _, State.nextOperation_clock _⟩

/-- What a command answers by the loader's work: the end of a write, or the state as it was. -/
theorem exec_writeEnds {i : Instr} (hi : (∃ a l, i = .startRecordWriteDone a l) ∨ (∃ l, i = .memoryPollTimeout l) ∨
    ∃ a, i = .configWriteDone a) : exec i s = .next s ∨
    (∃ n a l, s.loader.op = some (.startWrite n) ∧ exec i s = .next (s.startWriteEnds n a l)) ∨
    ∃ w a, s.loader.op = some (.configWrite w) ∧ exec i s = .next (s.configWriteEnds w a) := by
  rcases hi with ⟨a, l, rfl⟩ | ⟨l, rfl⟩ | ⟨a, rfl⟩
  · simp only [exec, execStartRecordWriteDone]
    split
    · exact .inr (.inl ⟨_, a, l, by assumption, rfl⟩)
    all_goals exact .inl rfl
  · simp only [exec, execMemoryPollTimeout]
    split
    · exact .inr (.inl ⟨_, false, l, by assumption, rfl⟩)
    · exact .inr (.inr ⟨_, false, by assumption, rfl⟩)
    all_goals exact .inl rfl
  · simp only [exec, execConfigWriteDone]
    split
    · exact .inr (.inr ⟨_, a, by assumption, rfl⟩)
    all_goals exact .inl rfl

/-- What a command answers that resets the station or takes its image: the state as it was, the blocks cleared, or the image
taken. -/
theorem exec_resets {i : Instr} (hi : (∃ a, i = .imageReadDone a) ∨ i = .restartTakesEffect ∨ i = .resetPinRelease) :
    exec i s = .next s ∨ (∃ m op r, exec i s = .next { s.cleared m op with listenReason := r }) ∨
    exec i s = .next s.takeImage := by
  rcases hi with ⟨a, rfl⟩ | rfl | rfl
  · simp only [exec, execImageReadDone]
    split
    · split
      · split
        · exact .inr (.inl ⟨.listen, none, some _, rfl⟩)
        · exact .inr (.inr rfl)
      · exact .inr (.inl ⟨.listen, none, some _, rfl⟩)
    · exact .inl rfl
  · simp only [exec, execRestartTakesEffect]
    split
    · exact .inl rfl
    · exact .inl rfl
    · exact .inl rfl
    · exact .inr (.inl ⟨.loading, some .imageRead, none, rfl⟩)
    · exact .inr (.inl ⟨.loading, some .imageRead, none, rfl⟩)
  · simp only [exec, execResetPinRelease]
    split
    · exact .inr (.inl ⟨.loading, some .imageRead, none, rfl⟩)
    · exact .inl rfl

/-- The commands that may shift the station, by what they do. -/
theorem Instr.Shifts.cases {i : Instr} (hi : Instr.Shifts i) : i = .powerOnReset ∨
    ((∃ a, i = .imageReadDone a) ∨ i = .restartTakesEffect ∨ i = .resetPinRelease) ∨
    ((∃ a l, i = .startRecordWriteDone a l) ∨ (∃ l, i = .memoryPollTimeout l) ∨ ∃ a, i = .configWriteDone a) := by
  rcases hi with h | h | h | h | h | h | h
  · exact .inl h
  · exact .inr (.inl (.inl h))
  · exact .inr (.inr (.inl h))
  · exact .inr (.inr (.inr (.inl h)))
  · exact .inr (.inl (.inr (.inl h)))
  · exact .inr (.inr (.inr (.inr h)))
  · exact .inr (.inl (.inr (.inr h)))

theorem State.cutWrite_pending (s : State) : s.cutWrite.pending = s.pending := by
  unfold State.cutWrite
  split <;> rfl

/-- Every command answers. -/
theorem exec_answers (i : Instr) (s : State) : ∃ t, exec i s = .next t := by
  cases i with
  | imageReadDone a =>
    simp only [exec, execImageReadDone]
    repeat' split
    all_goals exact ⟨_, rfl⟩
  | startRecordWriteDone a l =>
    simp only [exec, execStartRecordWriteDone]
    split <;> exact ⟨_, rfl⟩
  | memoryPollTimeout l =>
    simp only [exec, execMemoryPollTimeout]
    split <;> exact ⟨_, rfl⟩
  | restartTakesEffect =>
    simp only [exec, execRestartTakesEffect]
    split <;> exact ⟨_, rfl⟩
  | configWriteDone a =>
    simp only [exec, execConfigWriteDone]
    split <;> exact ⟨_, rfl⟩
  | inputPointSample n =>
    simp only [exec, execInputPointSample]
    repeat' split
    all_goals exact ⟨_, rfl⟩
  | pollCycleDue =>
    simp only [exec, execPollCycleDue]
    split <;> exact ⟨_, rfl⟩
  | signRequestEnd =>
    simp only [exec, execSignRequestEnd]
    split <;> exact ⟨_, rfl⟩
  | signCharacterReceived v m f =>
    simp only [exec, execSignCharacterReceived]
    split <;> exact ⟨_, rfl⟩
  | replyTimeoutExpiry =>
    simp only [exec, execReplyTimeoutExpiry]
    split <;> exact ⟨_, rfl⟩
  | guardExpiry =>
    simp only [exec, execGuardExpiry]
    split <;> exact ⟨_, rfl⟩
  | cdInactive =>
    simp only [exec, execCdInactive]
    split <;> exact ⟨_, rfl⟩
  | slotExpiry =>
    simp only [exec, execSlotExpiry]
    repeat' split
    all_goals exact ⟨_, rfl⟩
  | keyupDelayExpiry =>
    simp only [exec, execKeyupDelayExpiry]
    split <;> exact ⟨_, rfl⟩
  | sendComplete =>
    simp only [exec, execSendComplete]
    split <;> exact ⟨_, rfl⟩
  | replyEnd =>
    simp only [exec, execReplyEnd]
    repeat' split
    all_goals exact ⟨_, rfl⟩
  | _ => exact ⟨_, rfl⟩

theorem exec_pending {i : Instr} (h : exec i s = .next t) : t.pending = s.pending := by
  have hnext : ∀ {u : State}, exec i s = .next u → t = u := fun h' => Host.Outcome.next.inj (h.symm.trans h')
  by_cases hi : Instr.Shifts i
  · rcases hi.cases with rfl | hi | hi
    · rw [hnext rfl]
      exact s.cutWrite_pending
    · rcases exec_resets (s := s) hi with h' | ⟨m, op, r, h'⟩ | h' <;> rw [hnext h'] <;> rfl
    · rcases exec_writeEnds (s := s) hi with h' | ⟨n, a, l, -, h'⟩ | ⟨w, a, -, h'⟩
      · rw [hnext h']
      · rw [hnext h']
        exact (s.startWriteEnds_writeEnded n a l).1.pending
      · rw [hnext h']
        exact (s.configWriteEnds_writeEnded w a).1.pending
  · exact (exec_steady hi h).pending

/-! ## Steps never stop (O2) -/

theorem step_of_no_command (hp : s.pending = []) : step s = .next s.idle := by simp only [step, hp]

/-- Settles O2: every arm answers, and the arm of a command whose event cannot occur answers the state itself. -/
theorem stepsNeverStop : Obligations.StepsNeverStop := by
  unfold Obligations.StepsNeverStop
  refine ⟨fun i s => ?_, fun s i => ⟨?_, ?_, ?_, ?_, ?_, ?_, ?_, ?_, ?_, ?_, ?_⟩, fun s hp => ⟨?_, ?_⟩⟩
  · obtain ⟨t, ht⟩ := exec_answers i s
    exact ⟨t, ht, exec_pending ht⟩
  · rintro hm (⟨c, n, rfl⟩ | ⟨c, n, rfl⟩ | ⟨n, rfl⟩ | ⟨l, rfl⟩ | rfl | rfl)
    · simp [exec, execLampSenseTick, hm]
    · simp [exec, execGateCompletion, hm]
    · simp [exec, execInputPointSample, hm]
    · simp [exec, execInputSampleInstant, hm]
    · simp [exec, execPresenceTime, hm]
    · simp [exec, execRefresh, hm]
  · rintro c n rfl hc
    simp only [exec, execLampSenseTick, State.lampTick]
    split
    · split
      · exact absurd (by assumption) (hc _)
      · rfl
    · rfl
  · rintro c n rfl hc
    simp only [exec, execGateCompletion, State.loopGate]
    split
    · split
      · exact absurd (by assumption) (hc _)
      · rfl
    · rfl
  · rintro rfl h
    simp [exec, execSignRequestEnd, h]
  · rintro rfl h
    simp [exec, execGuardExpiry, h]
  · rintro rfl (h | h)
    · simp [exec, execSlotExpiry, h]
    · simp [exec, execSlotExpiry, h]
  · rintro (rfl | rfl) h
    · simp [exec, execMinuteScan, h]
    · simp [exec, execSilenceCheck, h]
  · rintro a rfl (h | h)
    · simp [exec, execImageReadDone, h]
    · simp [exec, execImageReadDone, h]
  · rintro a l rfl h
    simp only [exec, execStartRecordWriteDone]
    split
    · exact absurd (by assumption) (h _)
    all_goals rfl
  · rintro a rfl h
    simp only [exec, execConfigWriteDone]
    split
    · exact absurd (by assumption) (h _)
    all_goals rfl
  · rintro l rfl (h | h)
    · simp [exec, execMemoryPollTimeout, h]
    · simp [exec, execMemoryPollTimeout, h]
  · intro hm
    rw [step_of_no_command hp]
    have hlive : s.live = true := decide_eq_true hm
    rw [State.idle, if_pos hlive]
    rfl
  · intro hm
    rw [step_of_no_command hp]
    rcases hm with hm | hm
    · simp [State.idle, State.live, hm]
    · simp [State.idle, State.live, hm]

/-! ## What changes the memory and the settings (O3) -/

/-- Every command keeps the memory in its canonical form. -/
theorem exec_wf {i : Instr} (hs : Memory.wf s.mem = true) (h : exec i s = .next t) : Memory.wf t.mem = true := by
  have hnext : ∀ {u : State}, exec i s = .next u → t = u := fun h' => Host.Outcome.next.inj (h.symm.trans h')
  by_cases hi : Instr.Shifts i
  · rcases hi.cases with rfl | hi | hi
    · rw [hnext rfl]
      exact State.wf_cutWrite hs
    · rcases exec_resets (s := s) hi with h' | ⟨m, op, r, h'⟩ | h' <;> rw [hnext h'] <;> exact hs
    · rcases exec_writeEnds (s := s) hi with h' | ⟨n, a, l, -, h'⟩ | ⟨w, a, -, h'⟩
      · rw [hnext h']
        exact hs
      · rw [hnext h', (s.startWriteEnds_writeEnded n a l).2]
        exact State.wf_memoryAfter a _ _ hs
      · rw [hnext h', (s.configWriteEnds_writeEnded w a).2]
        exact State.wf_memoryAfter a _ _ hs
  · rw [(exec_steady hi h).mem]
    exact hs

theorem step_wf (hs : Memory.wf s.mem = true) (h : step s = .next t) : Memory.wf t.mem = true := by
  unfold step at h
  split at h
  · rw [← Host.Outcome.next.inj h, State.idle]
    split <;> exact hs
  · rename_i rest _
    have hrest : Memory.wf ({ s with pending := rest } : State).mem = true := hs
    exact exec_wf hrest h

/-- Only a power-on reset and the end of a write touch the memory. -/
theorem exec_mem {i : Instr} (h : exec i s = .next t) (h1 : i ≠ .powerOnReset) (h2 : ∀ a l, i ≠ .startRecordWriteDone a l)
    (h3 : ∀ l, i ≠ .memoryPollTimeout l) (h4 : ∀ a, i ≠ .configWriteDone a) : t.mem = s.mem := by
  by_cases hi : Instr.Shifts i
  · rcases hi.cases with hi | hi | ⟨a, l, hi⟩ | ⟨l, hi⟩ | ⟨a, hi⟩
    · exact absurd hi h1
    · rcases exec_resets (s := s) hi with h' | ⟨m, op, r, h'⟩ | h' <;> rw [Host.Outcome.next.inj (h.symm.trans h')] <;> rfl
    · exact absurd hi (h2 a l)
    · exact absurd hi (h3 l)
    · exact absurd hi (h4 a)
  · exact (exec_steady hi h).mem

/-- Only a reset and the image read touch the settings and the station number. -/
theorem exec_settings {i : Instr} (h : exec i s = .next t) (h1 : i ≠ .powerOnReset) (h2 : i ≠ .resetPinRelease)
    (h3 : i ≠ .restartTakesEffect) (h4 : ∀ a, i ≠ .imageReadDone a) : t.cfg = s.cfg ∧ t.number = s.number := by
  by_cases hi : Instr.Shifts i
  · rcases hi.cases with hi | (⟨a, hi⟩ | hi | hi) | hi
    · exact absurd hi h1
    · exact absurd hi (h4 a)
    · exact absurd hi h3
    · exact absurd hi h2
    · rcases exec_writeEnds (s := s) hi with h' | ⟨n, a, l, -, h'⟩ | ⟨w, a, -, h'⟩ <;>
        rw [Host.Outcome.next.inj (h.symm.trans h')]
      · exact ⟨rfl, rfl⟩
      · exact ⟨(s.startWriteEnds_writeEnded n a l).1.cfg, (s.startWriteEnds_writeEnded n a l).1.number⟩
      · exact ⟨(s.configWriteEnds_writeEnded w a).1.cfg, (s.configWriteEnds_writeEnded w a).1.number⟩
  · exact ⟨(exec_steady hi h).cfg, (exec_steady hi h).number⟩

/-- Only those and the end of a start-record write touch the station state and the clock. -/
theorem exec_mode {i : Instr} (h : exec i s = .next t) (h1 : i ≠ .powerOnReset) (h2 : i ≠ .resetPinRelease)
    (h3 : i ≠ .restartTakesEffect) (h4 : ∀ a, i ≠ .imageReadDone a) (h5 : ∀ a l, i ≠ .startRecordWriteDone a l)
    (h6 : ∀ l, i ≠ .memoryPollTimeout l) : t.mode = s.mode ∧ t.listenReason = s.listenReason ∧ t.clock = s.clock := by
  by_cases hi : Instr.Shifts i
  · rcases hi.cases with hi | (⟨a, hi⟩ | hi | hi) | ⟨a, l, hi⟩ | ⟨l, hi⟩ | ⟨a, rfl⟩
    · exact absurd hi h1
    · exact absurd hi (h4 a)
    · exact absurd hi h3
    · exact absurd hi h2
    · exact absurd hi (h5 a l)
    · exact absurd hi (h6 l)
    · simp only [exec, execConfigWriteDone] at h
      split at h
      · rename_i w _
        rw [← Host.Outcome.next.inj h]
        exact s.configWriteEnds_mode w a
      all_goals
        obtain rfl := Host.Outcome.next.inj h
        exact ⟨rfl, rfl, rfl⟩
  · exact ⟨(exec_steady hi h).mode, (exec_steady hi h).listenReason, (exec_steady hi h).clock⟩

/-- Settles O3: by what the few commands do that are not made of events. -/
theorem memoryChangesAtWritesAlone : Obligations.MemoryChangesAtWritesAlone := by
  unfold Obligations.MemoryChangesAtWritesAlone
  refine ⟨fun i s t h => ⟨exec_mem h, fun h1 h2 h3 h4 => ?_⟩, fun s t hs h => step_wf hs h⟩
  obtain ⟨hcfg, hnumber⟩ := exec_settings h h1 h2 h3 h4
  exact ⟨hcfg, hnumber, exec_mode h h1 h2 h3 h4⟩

end Sys2Proof.Machine

/-! The configuration memory under its writes, and what resets and the image read make of the state. -/

namespace Sys2Proof.Machine

variable {m : Memory}

/-! ## Reading past a write -/

theorem Memory.read_write_ne {x y : Nat} (b : Byte) (h : Memory.wf m = true) (hy : y ≠ x) :
    Memory.read (Memory.write m x b) y = Memory.read m y := by
  by_cases hx : x < memorySize
  · rw [Memory.read_write x b y h hx, if_neg hy]
  · simp [Memory.write, hx]

theorem Memory.read_writeBytes_outside : ∀ {m : Memory} (bs : List Byte) (x : Nat) {y : Nat}, Memory.wf m = true →
    y < x ∨ x + bs.length ≤ y → Memory.read (Memory.writeBytes m x bs) y = Memory.read m y
  | _, [], _, _, _, _ => rfl
  | m, b :: bs, x, y, h, hy => by
    simp only [List.length_cons] at hy
    rw [Memory.writeBytes, Memory.read_writeBytes_outside bs (x + 1) (Memory.wf_write x b h) (by omega),
      Memory.read_write_ne b h (by omega)]

theorem Memory.read_maybeWritten_outside : ∀ {m : Memory} (bs : List Byte) (x k : Nat) {y : Nat}, Memory.wf m = true →
    y < x ∨ x + bs.length ≤ y → Memory.read (maybeWritten m x k bs) y = Memory.read m y
  | _, [], _, _, _, _, _ => rfl
  | m, b :: bs, x, k, y, h, hy => by
    simp only [List.length_cons] at hy
    unfold maybeWritten
    split
    · rw [Memory.read_maybeWritten_outside bs (x + 1) (k + 1) (Memory.wf_write x b h) (by omega),
        Memory.read_write_ne b h (by omega)]
    · exact Memory.read_maybeWritten_outside bs (x + 1) (k + 1) h (by omega)

/-- A byte of a write that failed is the old one or the new one (log 6). -/
theorem Memory.read_maybeWritten : ∀ {m : Memory} (bs : List Byte) (x k i : Nat), Memory.wf m = true →
    x + bs.length ≤ memorySize → i < bs.length →
    Memory.read (maybeWritten m x k bs) (x + i) = (bs[i]?).getD 0 ∨
      Memory.read (maybeWritten m x k bs) (x + i) = Memory.read m (x + i)
  | m, b :: bs, x, k, 0, h, hx, _ => by
    simp only [List.length_cons] at hx
    unfold maybeWritten
    split
    · refine .inl ?_
      rw [Memory.read_maybeWritten_outside bs (x + 1) (k + 1) (Memory.wf_write x b h) (by omega), Nat.add_zero,
        Memory.read_write x b x h (by omega)]
      simp
    · exact .inr (Memory.read_maybeWritten_outside bs (x + 1) (k + 1) h (by omega))
  | m, b :: bs, x, k, i + 1, h, hx, hi => by
    simp only [List.length_cons, Nat.add_lt_add_iff_right] at hx hi
    have hshift : x + (i + 1) = x + 1 + i := by omega
    unfold maybeWritten
    rw [hshift, List.getElem?_cons_succ]
    split
    · have hread : Memory.read (Memory.write m x b) (x + 1 + i) = Memory.read m (x + 1 + i) :=
        Memory.read_write_ne b h (by omega)
      rw [← hread]
      exact Memory.read_maybeWritten bs (x + 1) (k + 1) i (Memory.wf_write x b h) (by omega) hi
    · exact Memory.read_maybeWritten bs (x + 1) (k + 1) i h (by omega) hi

/-! ## Resets (O5) -/

theorem freeBytes_length (k n : Nat) : (freeBytes k n).length = n := by simp [freeBytes]

/-- The high byte of a 16-bit quantity. -/
theorem halfOf_high (lo hi : Byte) {i : Nat} (h : i < 8) : (halfOf lo hi).getLsbD (8 + i) = hi.getLsbD i := by
  simp [halfOf, show 8 + i < 16 by omega, show ¬ 8 + i < 8 by omega]

/-- A start record whose last byte was inverted where its parts agreed holds parts that disagree (R187). -/
theorem forceDisagreement_disagrees (h : Memory.wf m = true) :
    Memory.half (forceDisagreement m) 506 ≠ ~~~Memory.half (forceDisagreement m) 504 := by
  unfold forceDisagreement
  split
  · rename_i hagree
    intro hagree'
    have hread : ∀ y, Memory.read (Memory.write m 507 (~~~Memory.read m 507)) y =
        if y = 507 then ~~~Memory.read m 507 else Memory.read m y := fun y => Memory.read_write _ _ y h (by decide)
    have hbit := congrArg (·.getLsbD (8 + 0)) hagree
    have hbit' := congrArg (·.getLsbD (8 + 0)) hagree'
    simp only [Memory.half, hread, BitVec.getLsbD_not, halfOf_high _ _ (show 0 < 8 by decide)] at hbit hbit'
    simp at hbit hbit'
    simp [hbit] at hbit'
  · assumption

theorem forceDisagreement_outside (h : Memory.wf m = true) {y : Nat} (hy : y ≠ 507) :
    Memory.read (forceDisagreement m) y = Memory.read m y := by
  unfold forceDisagreement
  split
  · exact Memory.read_write_ne _ h hy
  · rfl

theorem State.cutWrite_eq (s : State) : s.cutWrite = { s with mem := s.cutWrite.mem, free := s.cutWrite.free } := by
  unfold State.cutWrite
  split <;> rfl

theorem State.powerOn_eq (s : State) : s.powerOn = { s.restarted with
    mode := .held, loader := ⟨none, none, none⟩, mem := s.cutWrite.mem, free := s.cutWrite.free
    counters := .replicate 16 ⟨0, false⟩, startWriteFail := false } := by
  rw [State.powerOn, State.cutWrite_eq]
  rfl

/-- Settles O5: a reset is `State.cleared`, and a power-on reset cuts the write in progress before. -/
theorem resetsClearTheBlocks : Obligations.ResetsClearTheBlocks := by
  unfold Obligations.ResetsClearTheBlocks
  refine ⟨fun s => ⟨s.powerOn, rfl, s.powerOn_eq, ?_, ?_, ?_⟩, fun s => ⟨?_, ?_, ?_, ?_, ?_⟩⟩
  · rintro (hop | hop) <;> simp [State.powerOn, State.cutWrite, hop]
  · intro n hop hwf
    have hmem : s.powerOn.mem = forceDisagreement (Memory.writeBytes s.mem 504 (freeBytes s.free 4)) := by
      simp [State.powerOn, State.cutWrite, hop]
    have hwritten := Memory.wf_writeBytes (freeBytes s.free 4) 504 hwf
    rw [hmem]
    refine ⟨forceDisagreement_disagrees hwritten, fun x hx => ?_⟩
    rw [forceDisagreement_outside hwritten (by omega)]
    exact Memory.read_writeBytes_outside _ _ hwf (by rw [freeBytes_length]; omega)
  · intro w hop hwf x hx
    have hmem : s.powerOn.mem = Memory.writeBytes s.mem w.offset (freeBytes s.free w.bytes.length) := by
      simp [State.powerOn, State.cutWrite, hop]
    rw [hmem]
    exact Memory.read_writeBytes_outside _ _ hwf (by rwa [freeBytes_length])
  · intro hm
    simp only [exec, execResetPinRelease, if_pos hm]
    rfl
  · intro hm
    simp only [exec, execResetPinRelease, if_neg hm]
  · intro hr hop
    simp only [exec, execRestartTakesEffect]
    split
    · exact absurd (by assumption) hr
    · exact absurd (by assumption) (hop _)
    · exact absurd (by assumption) (hop _)
    · rfl
    · rfl
  · rintro hr ⟨n, hop⟩
    cases hs : s.restart with
    | none => exact absurd hs hr
    | answered => simp [exec, execRestartTakesEffect, hs, hop]
    | replyEnded => simp [exec, execRestartTakesEffect, hs, hop]
  · intro hr
    simp [exec, execRestartTakesEffect, hr]

/-! ## The image read (O6) -/

theorem imageFailure_none {m : Memory} (h1 : Memory.readBytes m 0 3 = [0x4D, 0x46, 0x01])
    (h2 : crc (Memory.readBytes m 0 502) = Memory.half m 502)
    (h3 : 1 ≤ (Memory.read m 3).toNat ∧ (Memory.read m 3).toNat ≤ 240) : imageFailure m = none := by
  simp [imageFailure, h1, imageCrc, h2, Memory.byteAt, h3]

/-- Settles O6: the checks of R183 in their order. -/
theorem imageReadDecidesTheStart : Obligations.ImageReadDecidesTheStart := by
  unfold Obligations.ImageReadDecidesTheStart
  intro s hm hop
  have hfails : ∀ {r : ListenReason}, imageFailure s.mem = some r → exec (.imageReadDone true) s = .next (s.listening r) := by
    intro r hr
    simp only [exec, execImageReadDone, hm, hop, and_self, if_true, hr]
    rfl
  refine ⟨?_, fun h1 => hfails ?_, fun h1 h2 => hfails ?_, fun h1 h2 h3 => hfails ?_, fun h1 h2 h3 h4 => ?_⟩
  · simp only [exec, execImageReadDone, hm, hop, and_self, if_true]
    rfl
  · rw [imageFailure, if_pos h1]
  · rw [imageFailure, if_neg (not_not.2 h1), if_pos]
    exact h2
  · have hnot : ¬ (1 ≤ (Memory.read s.mem 3).toNat ∧ (Memory.read s.mem 3).toNat ≤ 240) := by omega
    rw [imageFailure, if_neg (not_not.2 h1), if_neg (show ¬ imageCrc s.mem ≠ _ from not_not.2 h2), Memory.byteAt, if_neg hnot]
  · have hexec : exec (.imageReadDone true) s = .next s.takeImage := by
      simp only [exec, execImageReadDone, hm, hop, and_self, if_true, imageFailure_none h1 h2 ⟨h3, h4⟩]
    exact hexec

end Sys2Proof.Machine

/-! The field events: the sense tick (O10), the gate (O13), the input instants (O12) and the samples that declare
nothing (O15). -/

namespace Sys2Proof.Machine

/-! ## Lamp channels (O10) -/

/-- The record that a classified sense tick leaves. -/
def LampRecord.taken (r : LampRecord) (i : Nat) (cls : SampleClass) (q : Option Nat) : LampRecord :=
  { r with latestCurrent := some i, latestClass := some cls, latestRatio := q }

section Lamp

variable {r : LampRecord} (cfg : LampCfg) (i : Nat) (now : Time)

/-- The warm-up window (R27) of a channel with demand ON. -/
theorem LampRecord.warming_iff_of_demand_on (hon : r.demand = true) :
    r.warming cfg now = true ↔ ∃ t, r.tw = some t ∧ since now t < cfg.warmUp := by
  cases htw : r.tw with
  | none => simp [LampRecord.warming, htw]
  | some t => simp [LampRecord.warming, hon, htw]

theorem LampRecord.tick_of_supply_lost : r.tick cfg true i now = (r.taken i .neutral none, .neutral) := by
  simp [LampRecord.tick, LampRecord.taken]

theorem LampRecord.tick_of_warming (hon : r.demand = true) (hw : r.warming cfg now = true) :
    r.tick cfg false i now = (r.taken i .neutral none, .neutral) := by
  simp [LampRecord.tick, LampRecord.taken, hon, hw]

theorem LampRecord.tick_of_cooling (hoff : r.demand = false) (hc : r.cooling now = true) :
    r.tick cfg false i now = (r.taken i .neutral none, .neutral) := by
  simp [LampRecord.tick, LampRecord.taken, hoff, hc]

section Lit

variable (hon : r.demand = true) (hw : r.warming cfg now = false)
include hon hw

theorem LampRecord.tick_of_full_scale :
    r.tick cfg false 2047 now = (r.taken 2047 (.abnormal .lampOvercurrent) none, .abnormal .lampOvercurrent) := by
  simp [LampRecord.tick, LampRecord.taken, hon, hw]

theorem LampRecord.tick_of_failed (hi : i < 2047) (h0 : r.reference = 0) (hf : r.learnFailed = true) :
    r.tick cfg false i now = (r.taken i (.abnormal .lampOut) none, .abnormal .lampOut) := by
  simp [LampRecord.tick, LampRecord.taken, hon, hw, Nat.ne_of_lt hi, h0, hf]

theorem LampRecord.tick_of_learning (hi : i < 2047) (h0 : r.reference = 0) (hf : r.learnFailed = false) :
    r.tick cfg false i now = ((r.collect i).taken i .neutral none, .neutral) := by
  simp [LampRecord.tick, LampRecord.taken, hon, hw, Nat.ne_of_lt hi, h0, hf]

theorem LampRecord.tick_of_ratio (hi : i < 2047) (h0 : 0 < r.reference) :
    r.tick cfg false i now =
      (r.taken i (ratioClass cfg (lampRatio i r.reference)) (some (lampRatio i r.reference)),
        ratioClass cfg (lampRatio i r.reference)) := by
  simp [LampRecord.tick, LampRecord.taken, hon, hw, Nat.ne_of_lt hi, Nat.ne_of_gt h0]

end Lit

theorem LampRecord.collect_of_more (h : r.learnCount + 1 ≠ 16) :
    r.collect i = { r with learnCount := r.learnCount + 1, learnSum := r.learnSum + i } := by
  simp only [LampRecord.collect, if_neg h]

theorem LampRecord.collect_completes (h : r.learnCount + 1 = 16) (h5 : 5 ≤ (r.learnSum + i) / 16) :
    r.collect i = { r with learnCount := 16, learnSum := r.learnSum + i, reference := (r.learnSum + i) / 16 } := by
  simp only [LampRecord.collect, if_pos h, if_pos h5]

theorem LampRecord.collect_fails (h : r.learnCount + 1 = 16) (h5 : (r.learnSum + i) / 16 < 5) :
    r.collect i = { r with learnCount := 0, learnSum := 0, learnFailed := true } := by
  simp only [LampRecord.collect, if_pos h, if_neg (Nat.not_le.2 h5)]

end Lamp

/-- Settles O10: the rows of Table 2.3, one equation of `LampRecord.tick` each. -/
theorem lampTickClassifies : Obligations.LampTickClassifies := by
  unfold Obligations.LampTickClassifies
  intro s c current cfg r hrun hcfg hrec i lost warming cooling gives
  have hexec := exec_lampSenseTick_of_lamp current hrun hcfg hrec
  have hgives : ∀ {x : LampRecord} {q : Option Nat} {cls : SampleClass},
      r.tick cfg (s.supplyLost cfg) i s.now = (x.taken i cls q, cls) → gives x q cls := by
    intro x q cls htick
    rw [htick] at hexec
    exact hexec
  have hsupply : ¬ lost → s.supplyLost cfg = false := fun h => Bool.eq_false_iff.mpr (mt (s.supplyLost_iff cfg).mp h)
  have hwarm : r.demand = true → ¬ warming → r.warming cfg s.now = false := fun hon h =>
    Bool.eq_false_iff.mpr (mt (LampRecord.warming_iff_of_demand_on cfg s.now hon).mp h)
  refine ⟨fun hl => hgives ?_, fun hl hon hw => hgives ?_, fun hl hon hw hi => ?_, fun hl hon hw hi h0 => ⟨fun hf => hgives ?_,
    fun hf h16 => hgives ?_, fun hf h16 h5 => hgives ?_, fun hf h16 h5 => hgives ?_⟩, fun hl hon hw hi h0 => ?_,
    fun hl hoff hc => hgives ?_⟩
  · rw [(s.supplyLost_iff cfg).mpr hl]
    exact LampRecord.tick_of_supply_lost ..
  · rw [hsupply hl]
    exact LampRecord.tick_of_warming cfg i s.now hon ((LampRecord.warming_iff_of_demand_on cfg s.now hon).mpr hw)
  · refine hgives ?_
    rw [hsupply hl, hi]
    exact LampRecord.tick_of_full_scale cfg s.now hon (hwarm hon hw)
  · rw [hsupply hl]
    exact LampRecord.tick_of_failed cfg i s.now hon (hwarm hon hw) hi h0 hf
  · rw [hsupply hl, LampRecord.tick_of_learning cfg i s.now hon (hwarm hon hw) hi h0 hf, LampRecord.collect_of_more i h16]
  · rw [hsupply hl, LampRecord.tick_of_learning cfg i s.now hon (hwarm hon hw) hi h0 hf,
      LampRecord.collect_completes i h16 h5]
  · rw [hsupply hl, LampRecord.tick_of_learning cfg i s.now hon (hwarm hon hw) hi h0 hf,
      LampRecord.collect_fails i h16 h5]
  · refine hgives ?_
    rw [hsupply hl]
    exact LampRecord.tick_of_ratio cfg i s.now hon (hwarm hon hw) hi h0
  · rw [hsupply hl]
    exact LampRecord.tick_of_cooling cfg i s.now hoff ((LampRecord.cooling_iff_of_demand_off s.now hoff).mpr hc)

/-! ## Loop channels (O13) -/

/-- GATE_COMPLETION on a LOOP channel in RUN: the record and the filter take what `LoopRecord.gate` gives. -/
theorem exec_gateCompletion_of_loop {s : State} {c : Fin 16} {cfg : LoopCfg} {r : LoopRecord} (count : Nat)
    (hrun : s.mode = .run) (hcfg : s.cfg.channel c = .loop cfg) (hrec : s.channel c = .loop r) :
    exec (.gateCompletion c count) s =
      .next (State.settle ((s.setChannel c (.loop (r.gate cfg (min 65535 count) s.now).1)).applySample c
        (r.gate cfg (min 65535 count) s.now).2)) := by
  simp [exec, execGateCompletion, State.loopGate, measuredCount, hrun, hcfg, hrec]

section Loop

variable {r : LoopRecord} {cfg : LoopCfg} {n : Nat} {now : Time}

theorem LoopRecord.occupy_of_free (h : r.occStart = none) : r.occupy false now = r := by
  simp [LoopRecord.occupy, h]

theorem LoopRecord.occupy_ends (h : r.occStart ≠ none) :
    r.occupy false now = { r with occStart := none, lastOccEnd := some now } := by
  cases ho : r.occStart with
  | none => exact absurd ho h
  | some t => simp [LoopRecord.occupy, ho]

theorem LoopRecord.occupy_eq (b : Bool) : r.occupy b now = { r with
    occStart := if b = true then some (r.occStart.getD now) else none
    lastOccEnd := if ¬ b = true ∧ r.occStart.isSome = true then some now else r.lastOccEnd } := by
  cases b <;> cases ho : r.occStart <;> simp [LoopRecord.occupy, ho]
  all_goals rw [← ho]

theorem LoopRecord.gate_below (h : n < cfg.openFloor) : r.gate cfg n now = ({ r.occupy false now with
    latestCount := some n, latestDeviation := none, latestDrift := none, latestClass := some (.abnormal .loopOpen) },
    .abnormal .loopOpen) := by
  simp only [LoopRecord.gate, if_pos h]

theorem LoopRecord.gate_captures (h : cfg.openFloor ≤ n) (hc : r.capture = none) : r.gate cfg n now = ({ r with
    capture := some ⟨64 * n, now⟩, nominal := if r.nominal = 0 then n else r.nominal
    nominalCaptured := decide (r.nominal = 0) || r.nominalCaptured
    latestCount := some n, latestDeviation := none, latestDrift := none, latestClass := some .neutral }, .neutral) := by
  simp only [LoopRecord.gate, if_neg (Nat.not_lt.2 h), hc, decide_eq_true_eq]

theorem tracksBaseline_iff (cls : SampleClass) :
    tracksBaseline cls = true ↔ cls = .normal ∨ cls = .abnormal .loopDrift ∨ cls = .abnormal .loopSilent := by
  simp [tracksBaseline, or_assoc]

theorem gateOccupied_iff (cfg : LoopCfg) (d : Int) :
    gateOccupied cfg d = true ↔ (cfg.detect : Int) ≤ d ∧ d < cfg.shortLimit := by
  simp [gateOccupied]

/-- Rows 3 to 7 of Table 3.3, with the occupancy written out (R46, R47). -/
theorem loopClass_occupy (r : LoopRecord) (cfg : LoopCfg) (captured now : Time) (d : Int) (e : Nat) {occupied : Prop}
    [Decidable occupied] (ho : gateOccupied cfg d = true ↔ occupied) :
    loopClass cfg (r.occupy (gateOccupied cfg d) now) captured d e now =
      if (cfg.shortLimit : Int) ≤ d then .abnormal .loopShort
      else if occupied ∧ 60 * cfg.maxPresence ≤ since now (r.occStart.getD now) then .abnormal .loopStuck
      else if cfg.driftLimit ≤ e then .abnormal .loopDrift
      else if 0 < cfg.maxSilence ∧ ¬ occupied ∧ 3600 * cfg.maxSilence ≤
          since now ((if ¬ occupied ∧ r.occStart.isSome = true then some now else r.lastOccEnd).getD captured) then
        .abnormal .loopSilent
      else .normal := by
  rw [LoopRecord.occupy_eq, loopClass]
  by_cases h : occupied
  · simp [ho.2 h, h]
  · simp [Bool.eq_false_iff.2 (mt ho.1 h), h]

/-- A measured gate: deviation and drift from the baseline as it stood, the occupancy, the class, then the baseline. -/
theorem LoopRecord.gate_measured {base : Nat} {captured : Time} (h : cfg.openFloor ≤ n)
    (hc : r.capture = some ⟨base, captured⟩) {d : Int} {e : Nat} {cls : SampleClass} (hd : loopDeviation n (base / 64) = d)
    (he : loopDrift (base / 64) r.nominal = e)
    (hcls : loopClass cfg (r.occupy (gateOccupied cfg d) now) captured d e now = cls) :
    r.gate cfg n now = ({ r.occupy (gateOccupied cfg d) now with
      capture := some ⟨if tracksBaseline cls && !gateOccupied cfg d then trackBaseline base n else base, captured⟩
      latestCount := some n, latestDeviation := some d, latestDrift := some e, latestClass := some cls }, cls) := by
  subst hd he hcls
  simp only [LoopRecord.gate, if_neg (Nat.not_lt.2 h), hc]
  rfl

end Loop

/-- Settles O13: a gate below the open floor, the gate that captures and the measured gate, one equation of
`LoopRecord.gate` each. -/
theorem gateClassifies : Obligations.GateClassifies := by
  unfold Obligations.GateClassifies
  constructor
  · intro s c count cfg r hrun hcfg hrec n gives
    have hexec := exec_gateCompletion_of_loop count hrun hcfg hrec
    have hgives : ∀ {x : LoopRecord} {cls : SampleClass}, r.gate cfg n s.now = ({ x with
        latestCount := some n, latestDeviation := none, latestDrift := none, latestClass := some cls }, cls) →
        gives x cls := by
      intro x cls hgate
      rw [hgate] at hexec
      exact hexec
    refine ⟨fun hn ho => hgives ?_, fun hn ho => hgives ?_, fun hn hc => ⟨fun h0 => hgives ?_, fun h0 => hgives ?_⟩⟩
    · rw [LoopRecord.gate_below hn, LoopRecord.occupy_of_free ho]
    · rw [LoopRecord.gate_below hn, LoopRecord.occupy_ends ho]
    · rw [LoopRecord.gate_captures hn hc]
      simp [h0]
    · rw [LoopRecord.gate_captures hn hc]
      simp [h0]
  · intro s c count cfg r base captured hrun hcfg hrec hc hn n ref d e occupied began ended cls base'
    have ho : gateOccupied cfg d = true ↔ occupied := gateOccupied_iff cfg d
    have hcls : loopClass cfg (r.occupy (gateOccupied cfg d) s.now) captured d e s.now = cls :=
      loopClass_occupy r cfg captured s.now d e ho
    have htrack : (tracksBaseline cls && !gateOccupied cfg d) = true ↔
        ¬ occupied ∧ (cls = .normal ∨ cls = .abnormal .loopDrift ∨ cls = .abnormal .loopSilent) := by
      rw [← ho, Bool.and_eq_true, tracksBaseline_iff, Bool.not_eq_true', Bool.not_eq_true, and_comm]
    rw [exec_gateCompletion_of_loop count hrun hcfg hrec,
      LoopRecord.gate_measured hn hc (d := d) (e := e) rfl rfl hcls, LoopRecord.occupy_eq]
    simp only [htrack, ho]
    rfl

/-! ## Cabinet inputs (O12) -/

section Inputs

variable {s : State}

theorem State.input_setInput (s : State) (i j : Nat) (r : InputRecord) (hi : i < 8) :
    (s.setInput i r).input j = if i = j then r else s.input j := by
  unfold State.input State.setInput
  by_cases hj : i = j
  · subst hj
    simp [tget_tset_self _ _ _ hi]
  · simp [tget_tset_ne _ _ _ hj, hj]

/-- The samples of several inputs: each listed input takes its own, the others keep their records. -/
theorem State.inputs_sampled (levels : BitVec 8) (i : Nat) : ∀ (l : List Nat) (u : State), l.Nodup → (∀ j ∈ l, j < 8) →
    (l.foldl (fun s i => s.setInput i ((s.input i).sample (s.cfg.inputAt i).filter (levels.getLsbD i))) u).input i =
      if i ∈ l then (u.input i).sample (u.cfg.inputAt i).filter (levels.getLsbD i) else u.input i
  | [], _, _, _ => by simp
  | j :: l, u, hnodup, hlt => by
    obtain ⟨hj, hl⟩ := List.nodup_cons.1 hnodup
    rw [List.foldl_cons, State.inputs_sampled levels i l _ hl fun n hn => hlt n (List.mem_cons_of_mem _ hn),
      State.input_setInput _ _ _ _ (hlt j List.mem_cons_self), State.setInput_cfg]
    by_cases hij : j = i
    · subst hij
      simp [hj]
    · simp [hij, Ne.symm hij]

theorem State.input_sampleInputs (s : State) (levels : BitVec 8) {i : Nat} (hi : i < 8) :
    (s.sampleInputs levels).input i = (s.input i).sample (s.cfg.inputAt i).filter (levels.getLsbD i) := by
  refine (State.inputs_sampled levels i inputNumbers s List.nodup_range fun j hj => List.mem_range.1 hj).trans ?_
  exact if_pos (List.mem_range.2 hi)

/-- A channel's record after the demand edge that a change of its demand input gives it. -/
def State.edgeTaken (before s : State) (c : Nat) (x : Channel) : Channel :=
  match s.cfg.channel c, x with
  | .lamp cfg, .lamp r =>
    match cfg.demand with
    | none => x
    | some i => if (before.input i).filtered = (s.input i).filtered then x else .lamp (r.edge (s.inputActive i) s.now)
  | _, _ => x

theorem State.channel_outside (s : State) {n : Nat} (h : 16 ≤ n) : s.channel n = Channel.reset := tget_outside _ _ h

theorem State.setChannel_channel (s : State) (c : Nat) : s.setChannel c (s.channel c) = s := by
  have hsame : tset s.channels c (tget s.channels c Channel.reset) = s.channels := by
    apply Vector.ext
    intro i hi
    rw [tset, Vector.getElem_setIfInBounds hi]
    split
    · rename_i hci
      subst hci
      simp [tget, hi]
    · rfl
  rw [State.setChannel, State.channel, hsame]

/-- A pass over channels, each taking a new record from its own alone: the listed ones take it, the others stay, and nothing
else changes. -/
theorem State.foldl_channels {u : State} {f : State → Nat → State} {g : Nat → Channel → Channel}
    (hf : ∀ (v : State) (c : Nat), v = { u with channels := v.channels } → f v c = v.setChannel c (g c (v.channel c))) :
    ∀ (l : List Nat) (v : State), v = { u with channels := v.channels } → l.Nodup → (∀ c ∈ l, c < 16) →
    l.foldl f v = { u with channels := (l.foldl f v).channels } ∧
      ∀ n, (l.foldl f v).channel n = if n ∈ l then g n (v.channel n) else v.channel n
  | [], _, hv, _, _ => ⟨hv, fun _ => by simp⟩
  | c :: l, v, hv, hnodup, hlt => by
    obtain ⟨hc, hl⟩ := List.nodup_cons.1 hnodup
    have hstep : (v.setChannel c (g c (v.channel c))) =
        { u with channels := (v.setChannel c (g c (v.channel c))).channels } := by
      rw [hv]
      rfl
    obtain ⟨heq, hchannels⟩ := State.foldl_channels hf l _ hstep hl fun m hm => hlt m (List.mem_cons_of_mem _ hm)
    rw [List.foldl_cons, hf v c hv]
    refine ⟨heq, fun n => ?_⟩
    rw [hchannels, State.channel_setChannel]
    by_cases hcn : c = n
    · subst hcn
      simp [hc, hlt c List.mem_cons_self]
    · simp [hcn, Ne.symm hcn]

/-- A pass over every channel that keeps a channel outside the tables as it is. -/
theorem State.foldl_channelNumbers {u : State} {f : State → Nat → State} {g : Nat → Channel → Channel}
    (hf : ∀ (v : State) (c : Nat), v = { u with channels := v.channels } → f v c = v.setChannel c (g c (v.channel c)))
    (hreset : ∀ c, g c Channel.reset = Channel.reset) :
    channelNumbers.foldl f u = { u with channels := (channelNumbers.foldl f u).channels } ∧
      ∀ n, (channelNumbers.foldl f u).channel n = g n (u.channel n) := by
  obtain ⟨heq, hchannels⟩ := State.foldl_channels hf channelNumbers u rfl List.nodup_range fun c hc => List.mem_range.1 hc
  refine ⟨heq, fun n => (hchannels n).trans ?_⟩
  split
  · rfl
  · rename_i hn
    rw [u.channel_outside (Nat.not_lt.1 (mt List.mem_range.2 hn)), hreset]

theorem State.demandEdge_eq (before s : State) (c : Nat) :
    State.demandEdge before s c = s.setChannel c (State.edgeTaken before s c (s.channel c)) := by
  unfold State.demandEdge
  split
  · rename_i cfg r hcfg hr
    have hsame : s.setChannel c (.lamp r) = s := hr ▸ s.setChannel_channel c
    simp only [State.edgeTaken, hcfg, hr]
    cases cfg.demand with
    | none => exact hsame.symm
    | some i =>
      simp only
      split
      · exact hsame.symm
      · rfl
  · rename_i hnot
    have hsame : State.edgeTaken before s c (s.channel c) = s.channel c := by
      unfold State.edgeTaken
      split
      · rename_i hcfg hr
        exact (hnot _ _ hcfg hr).elim
      · rfl
    rw [hsame, s.setChannel_channel]

/-- The demand edges of all channels: each takes its own, and nothing else changes. -/
theorem State.demandEdges_eq (before u : State) :
    channelNumbers.foldl (State.demandEdge before) u =
        { u with channels := (channelNumbers.foldl (State.demandEdge before) u).channels } ∧
      ∀ n, (channelNumbers.foldl (State.demandEdge before) u).channel n = State.edgeTaken before u n (u.channel n) := by
  refine State.foldl_channelNumbers (fun v c hv => ?_) fun c => ?_
  · rw [State.demandEdge_eq]
    rw [hv]
    rfl
  · unfold State.edgeTaken Channel.reset
    split
    · contradiction
    · rfl

/-- Every channel's record after a sample instant is its record from before with the demand edge it takes. -/
theorem State.channel_sampleInstant (s : State) (levels : BitVec 8) (n : Nat) :
    (s.sampleInstant levels).channel n = State.edgeTaken s (s.sampleInputs levels) n (s.channel n) := by
  have hbefore : (s.sampleInputs levels).channel n = s.channel n := by
    rw [State.channel, State.channels_of_inputs (s.sampleInputs_eq levels), State.channel]
  rw [State.sampleInstant, (State.demandEdges_eq s _).2 n, hbefore]

theorem State.sampleInstant_inputs (s : State) (levels : BitVec 8) :
    (s.sampleInstant levels).inputs = (s.sampleInputs levels).inputs := by
  unfold State.sampleInstant
  generalize s.sampleInputs levels = u
  rw [(State.demandEdges_eq s u).1]

/-- A sample instant changes the inputs and the channels alone. -/
theorem State.sampleInstant_eq (s : State) (levels : BitVec 8) : s.sampleInstant levels =
    { s with inputs := (s.sampleInstant levels).inputs, channels := (s.sampleInstant levels).channels } := by
  rw [s.sampleInstant_inputs levels]
  have hsampled := s.sampleInputs_eq levels
  unfold State.sampleInstant
  generalize s.sampleInputs levels = u at hsampled ⊢
  have hedges := (State.demandEdges_eq s u).1
  generalize channelNumbers.foldl (State.demandEdge s) u = t at hedges ⊢
  rw [hedges, hsampled]

theorem State.sampleInputs_cfg (s : State) (levels : BitVec 8) : (s.sampleInputs levels).cfg = s.cfg := by
  rw [s.sampleInputs_eq levels]

theorem State.sampleInputs_now (s : State) (levels : BitVec 8) : (s.sampleInputs levels).now = s.now := by
  rw [State.now, s.sampleInputs_eq levels, State.now]

theorem LampRecord.edge_on (r : LampRecord) (now : Time) : r.edge true now = { r with
    demand := true, tw := some now, tc := none
    learnCount := if r.reference = 0 then 0 else r.learnCount
    learnSum := if r.reference = 0 then 0 else r.learnSum
    learnFailed := if r.reference = 0 then false else r.learnFailed } := by
  by_cases h : r.reference = 0 <;> simp [LampRecord.edge, h]

theorem LampRecord.edge_off (r : LampRecord) (now : Time) : r.edge false now = { r with
    demand := false, tw := none, tc := some now
    learnCount := if r.reference = 0 then 0 else r.learnCount
    learnSum := if r.reference = 0 then 0 else r.learnSum } := by
  by_cases h : r.reference = 0 <;> simp [LampRecord.edge, h]

theorem State.inputActive_iff (s : State) (i : Nat) :
    s.inputActive i = true ↔ (s.input i).filtered = (s.cfg.inputAt i).activeHigh := beq_iff_eq

theorem roleKind_of_mem {role : Role} {k : Kind}
    (h : (role, k) ∈ [(Role.mains, Kind.mainsLost), (.door, .doorOpen), (.general, .inputActive)]) :
    (role = .mains ∨ role = .door ∨ role = .general) ∧ roleKind role = k := by
  simp only [List.mem_cons, Prod.mk.injEq, List.not_mem_nil, or_false] at h
  rcases h with ⟨rfl, rfl⟩ | ⟨rfl, rfl⟩ | ⟨rfl, rfl⟩ <;> simp [roleKind]

/-- INPUT_POINT_SAMPLE of an input that has a point, in RUN. -/
theorem exec_inputPointSample {i : Fin 8} (hrun : s.mode = .run)
    (h : (s.cfg.inputAt i).role = .mains ∨ (s.cfg.inputAt i).role = .door ∨ (s.cfg.inputAt i).role = .general) :
    exec (.inputPointSample i) s = .next (s.applySample (24 + i) (s.inputSample i)).settle := by
  rcases h with h | h | h <;> simp [exec, execInputPointSample, hrun, h, inputPoint]

end Inputs

/-- Settles O12: the inputs are sampled each by its own record, then each channel takes its own demand edge. -/
theorem inputsAreSampled : Obligations.InputsAreSampled := by
  unfold Obligations.InputsAreSampled
  refine ⟨fun s levels hrun => ?_, fun s i hrun => ⟨fun k hk => ?_, fun h => ?_⟩⟩
  · have heq := s.sampleInstant_eq levels
    have hinput : ∀ i, (s.sampleInstant levels).input i = (s.sampleInputs levels).input i := fun i => by
      rw [State.input, s.sampleInstant_inputs levels, State.input]
    have hcfg := State.sampleInputs_cfg s levels
    refine ⟨s.sampleInstant levels, by simp [exec, execInputSampleInstant, hrun], heq, fun i hi => ?_, fun c => ⟨?_, ?_⟩⟩
    · rw [hinput, s.input_sampleInputs levels hi]
      rfl
    · intro cfg r n hc hr hn hne
      rw [hinput] at hne
      have hedge : (s.sampleInstant levels).channel c = .lamp (r.edge ((s.sampleInputs levels).inputActive n) s.now) := by
        rw [s.channel_sampleInstant levels, hr]
        simp only [State.edgeTaken, hcfg, hc, hn, if_neg (Ne.symm hne), s.sampleInputs_now levels]
      have hactive := (s.sampleInputs levels).inputActive_iff n
      rw [hinput, hedge]
      rw [hcfg] at hactive
      refine ⟨fun h => ?_, fun h => ?_⟩
      · rw [hactive.2 h, r.edge_on]
      · rw [Bool.eq_false_iff.2 (mt hactive.1 h), r.edge_off]
    · intro h
      rw [s.channel_sampleInstant levels]
      unfold State.edgeTaken
      split
      · rename_i cfg r hc hr
        split
        · rfl
        · rename_i i hi
          rw [hcfg] at hc
          rw [if_pos (by rw [← hinput]; exact (h cfg i hc hi).symm)]
      · rfl
  · obtain ⟨hrole, hkind⟩ := roleKind_of_mem hk
    rw [exec_inputPointSample hrun hrole, State.inputSample, hkind]
    exact ⟨fun h => by rw [if_pos ((s.inputActive_iff i).2 h)], fun h => by rw [if_neg (mt (s.inputActive_iff i).1 h)]⟩
  · rcases h with h | h <;> simp [exec, execInputPointSample, hrun, h]

end Sys2Proof.Machine

/-! The Point Filter's declarations (O15 to O19): the evidence alone, an own change with its entry and its item, the lamps
whose warm-up restarts. -/

namespace Sys2Proof.Machine

variable {s t : State} {p : Nat}

/-! ## Samples that declare nothing (O15) -/

section Samples

variable {d k : Kind}

theorem State.applySample_lowers (hd : (s.filter p).declared = .normal) :
    s.applySample p .normal = s.setFilter p ((s.filter p).lower (s.cfg.paramsOf p)) := by
  simp only [State.applySample, hd]

theorem State.applySample_stays_faulted (hd : (s.filter p).declared = .fault d)
    (h : (s.cfg.paramsOf p).off < (s.filter p).p - (s.cfg.paramsOf p).down) :
    s.applySample p .normal = s.setFilter p ((s.filter p).lower (s.cfg.paramsOf p)) := by
  simp only [State.applySample, hd, FilterRecord.lower, if_neg (Nat.not_le.2 h)]

theorem State.applySample_raises (hd : (s.filter p).declared = .normal)
    (h : min 63 ((s.filter p).p + (s.cfg.paramsOf p).up) < (s.cfg.paramsOf p).on) :
    s.applySample p (.abnormal k) = s.setFilter p ((s.filter p).raise (s.cfg.paramsOf p) k) := by
  simp only [State.applySample, hd, FilterRecord.raise, if_neg (Nat.not_le.2 h)]

theorem State.applySample_unconfirmed (hd : (s.filter p).declared = .fault d)
    (h : ¬ (k ≠ d ∧ (s.cfg.paramsOf p).confirm ≤ ((s.filter p).raise (s.cfg.paramsOf p) k).r)) :
    s.applySample p (.abnormal k) = s.setFilter p ((s.filter p).raise (s.cfg.paramsOf p) k) := by
  simp only [State.applySample, hd, if_neg h]

theorem State.applySample_onset (hd : (s.filter p).declared = .normal)
    (h : (s.cfg.paramsOf p).on ≤ min 63 ((s.filter p).p + (s.cfg.paramsOf p).up)) :
    s.applySample p (.abnormal k) = s.declareOnset p k ((s.filter p).raise (s.cfg.paramsOf p) k) := by
  simp only [State.applySample, hd]
  rw [if_pos (show _ ≤ ((s.filter p).raise (s.cfg.paramsOf p) k).p from h)]

theorem State.applySample_kindChange (hd : (s.filter p).declared = .fault d)
    (h : k ≠ d ∧ (s.cfg.paramsOf p).confirm ≤ ((s.filter p).raise (s.cfg.paramsOf p) k).r) :
    s.applySample p (.abnormal k) = s.declareKind p k ((s.filter p).raise (s.cfg.paramsOf p) k) := by
  simp only [State.applySample, hd, if_pos h]

theorem State.applySample_clear (hd : (s.filter p).declared = .fault d)
    (h : (s.filter p).p - (s.cfg.paramsOf p).down ≤ (s.cfg.paramsOf p).off) :
    s.applySample p .normal = s.declareClear p d ((s.filter p).lower (s.cfg.paramsOf p)) := by
  simp only [State.applySample, hd]
  rw [if_pos (show ((s.filter p).lower (s.cfg.paramsOf p)).p ≤ _ from h)]

end Samples

/-- Settles O15: one branch of `State.applySample` each. -/
theorem sampleWithoutDeclaration : Obligations.SampleWithoutDeclaration := by
  unfold Obligations.SampleWithoutDeclaration
  intro s p f c up raised
  refine ⟨fun cls h => ?_, s.applySample_neutral p, State.applySample_lowers, fun d => State.applySample_stays_faulted,
    fun k => State.applySample_raises, fun d hd => State.applySample_unconfirmed hd fun h => h.1 rfl,
    fun d k hd _ hr => State.applySample_unconfirmed hd fun h => Nat.not_lt.2 h.2 hr⟩
  rcases h with h | h
  · exact State.applySample_unused cls h
  · cases cls <;> simp only [State.applySample, f, h]

/-! ## The supply's lamps (R29, R81) -/

theorem State.suppliedLamp_iff (s : State) (i n : Nat) (r : LampRecord) : s.suppliedLamp i n = some r ↔
    ∃ cfg, s.cfg.channel n = .lamp cfg ∧ cfg.supply = some i ∧ s.channel n = .lamp r := by
  unfold State.suppliedLamp
  split
  · rename_i cfg x hcfg hx
    simp [hcfg, hx]
  · rename_i hnot
    simp only [reduceCtorEq, false_iff, not_exists, not_and]
    exact fun cfg hcfg _ hr => hnot cfg r hcfg hr

theorem State.affectedCount_eq (s : State) (i : Nat) : s.affectedCount i = ((List.range 16).filter fun n =>
    match s.cfg.channel n, s.channel n with
    | .lamp cfg, .lamp r => decide (cfg.supply = some i) && r.demand
    | _, _ => false).length := by
  refine congrArg List.length (List.filter_congr fun n _ => ?_)
  unfold State.suppliedLamp
  cases s.cfg.channel n with
  | lamp cfg =>
    cases s.channel n with
    | lamp r => by_cases hs : cfg.supply = some i <;> simp [hs]
    | loop r => rfl
    | off a b => rfl
  | loop cfg => rfl
  | off => rfl

/-- A channel's record once the supply of input `i` has returned. -/
def State.rewarmed (s : State) (i c : Nat) (x : Channel) : Channel :=
  match s.cfg.channel c, x with
  | .lamp cfg, .lamp r => if cfg.supply = some i then .lamp (r.warmRestart s.now) else x
  | _, _ => x

theorem State.supplyReturned_spec (s : State) (i : Nat) :
    s.supplyReturned i = { s with channels := (s.supplyReturned i).channels } ∧
      ∀ n, (s.supplyReturned i).channel n = s.rewarmed i n (s.channel n) := by
  refine State.foldl_channelNumbers (fun v c hv => ?_) fun c => ?_
  · have hrewarmed : s.rewarmed i c = v.rewarmed i c := by rw [hv]; rfl
    rw [hrewarmed]
    cases hl : v.suppliedLamp i c with
    | some r =>
      obtain ⟨cfg, hcfg, hsupply, hr⟩ := (v.suppliedLamp_iff i c r).1 hl
      simp only [State.rewarmed, hcfg, hr, hsupply, if_true]
    | none =>
      have hsame : v.rewarmed i c (v.channel c) = v.channel c := by
        unfold State.rewarmed
        split
        · rename_i cfg r hcfg hr
          refine if_neg fun hs => ?_
          simp [(v.suppliedLamp_iff i c r).2 ⟨cfg, hcfg, hs, hr⟩] at hl
        · rfl
      rw [hsame]
      exact (v.setChannel_channel c).symm
  · unfold State.rewarmed Channel.reset
    split
    · contradiction
    · rfl

theorem LampRecord.warmRestart_of_on {r : LampRecord} {now : Time} (h : r.demand = true) :
    r.warmRestart now = { r with tw := some now } := if_pos h

theorem LampRecord.warmRestart_of_off {r : LampRecord} {now : Time} (h : ¬ r.demand = true) : r.warmRestart now = r := if_neg h

theorem State.rewarmed_lit {i n : Nat} {r : LampRecord} (h : s.suppliedLamp i n = some r) (hd : r.demand = true) :
    s.rewarmed i n (s.channel n) = .lamp { r with tw := some s.now } := by
  obtain ⟨cfg, hcfg, hsupply, hr⟩ := (s.suppliedLamp_iff i n r).1 h
  simp only [State.rewarmed, hcfg, hr, hsupply, if_true, LampRecord.warmRestart_of_on hd]

theorem State.rewarmed_other {i n : Nat} (h : ¬ ∃ r, s.suppliedLamp i n = some r ∧ r.demand = true) :
    s.rewarmed i n (s.channel n) = s.channel n := by
  unfold State.rewarmed
  split
  · rename_i cfg r hcfg hr
    split
    · rename_i hs
      rw [LampRecord.warmRestart_of_off fun hd => h ⟨r, (s.suppliedLamp_iff i n r).2 ⟨cfg, hcfg, hs, hr⟩, hd⟩, hr]
    · rfl
  · rfl

/-- A point is that of a MAINS input. -/
def State.mainsPoint (s : State) (p : Nat) : Prop := 24 ≤ p ∧ (s.cfg.inputAt (p - 24)).role = .mains

/-- The lamps a point's leaving FAULT warms up anew: those with demand ON that the point supplies. -/
theorem State.leftFault_spec (s : State) (p : Nat) :
    s.leftFault p = { s with channels := (s.leftFault p).channels } ∧
    ∀ n,
      (∀ r, s.mainsPoint p → s.suppliedLamp (p - 24) n = some r → r.demand = true →
        (s.leftFault p).channel n = .lamp { r with tw := some s.now }) ∧
      ((¬ ∃ r, s.mainsPoint p ∧ s.suppliedLamp (p - 24) n = some r ∧ r.demand = true) →
        (s.leftFault p).channel n = s.channel n) := by
  by_cases h : s.mainsPoint p
  · obtain ⟨heq, hchannels⟩ := s.supplyReturned_spec (p - 24)
    have hleft : s.leftFault p = s.supplyReturned (p - 24) := if_pos h
    rw [hleft]
    refine ⟨heq, fun n => ⟨fun r _ hl hd => ?_, fun hnot => ?_⟩⟩
    · rw [hchannels, State.rewarmed_lit hl hd]
    · rw [hchannels, State.rewarmed_other fun ⟨r, hl, hd⟩ => hnot ⟨r, h, hl, hd⟩]
  · have hleft : s.leftFault p = s := if_neg h
    rw [hleft]
    exact ⟨rfl, fun n => ⟨fun r hm => absurd hm h, fun _ => rfl⟩⟩

/-! ## An own change with room in the view and a stamp free (R13, R16 to R19) -/

/-- The own change of point `p` that leaves the filter record `f` and the own entry `e`: the stamp taken, the entry stored
and its item offered; beside these at most channels change. -/
structure State.OwnChanged (s : State) (p : Nat) (f : FilterRecord) (e : Entry) (t : State) : Prop where
  keeps : t = { s with filters := tset s.filters p f, channels := t.channels, toCounty := t.toCounty }
  county : t.toCounty = { s.toCounty with toViewSide := t.toViewSide, nextChange := s.nextChange + 1 }
  overflow : t.viewOverflow = s.viewOverflow
  found : findEntry t.view s.number p = some e
  others : ∀ o q, ¬ (o = s.number ∧ q = p) → findEntry t.view o q = findEntry s.view o q
  offered : t.toQueueSide = offerItem s.ctx s.roll t.view ⟨.fault (e.item s.ctx), e.severity, .own, 0, 0⟩ s.toQueueSide

theorem State.stampFree_iff (s : State) : s.stampFree = true ↔ (s.nextChange - s.baseChange).toNat ≤ 32767 := by
  simp [State.stampFree]

theorem State.roomFor_iff (s : State) (p : Nat) :
    s.roomFor p = true ↔ s.view.length < viewCapacity ∨ (findEntry s.view s.number p).isSome = true := by
  simp [State.roomFor]

/-- A filter record set and its change declared. -/
theorem State.declareChange_changes {f : FilterRecord} {entry : Stamp → Option Entry → Entry} {e : Entry}
    (hstamp : s.stampFree = true) (hroom : s.roomFor p = true)
    (he : entry ⟨s.ownStart, s.nextChange⟩ (findEntry s.view s.number p) = e) (ho : e.origin = s.number) (hp : e.point = p) :
    s.OwnChanged p f e ((s.setFilter p f).declareChange p entry) := by
  have hcounty : s.toCounty.ownChange s.ctx p entry = County.offer s.ctx ⟨.fault (e.item s.ctx), e.severity, .own, 0, 0⟩
      { s.toCounty with view := putEntry s.view e, nextChange := s.nextChange + 1 } :=
    County.ownChange_room (s.stampFree_iff.1 hstamp) he ho hp ((s.roomFor_iff p).1 hroom)
  have hchange : (s.setFilter p f).declareChange p entry = (s.setFilter p f).setCounty (County.offer s.ctx
      ⟨.fault (e.item s.ctx), e.severity, .own, 0, 0⟩
      { s.toCounty with view := putEntry s.view e, nextChange := s.nextChange + 1 }) := by
    rw [← hcounty]
    rfl
  rw [hchange]
  refine ⟨rfl, rfl, rfl, ?_, fun o q hne => ?_, rfl⟩
  · exact ho ▸ hp ▸ findEntry_putEntry_self s.view e
  · exact findEntry_putEntry_ne s.view e fun h => hne ⟨h.1 ▸ ho, h.2 ▸ hp⟩

theorem State.OwnChanged.of_channels {f : FilterRecord} {e : Entry} {u : State} (h : s.OwnChanged p f e t)
    (hu : u = { t with channels := u.channels }) : s.OwnChanged p f e u := by
  have hcounty : u.toCounty = t.toCounty := by rw [hu]
  obtain ⟨hk, hc, hv, hf, ho, hq⟩ := h
  refine ⟨?_, ?_, ?_, ?_, ?_, ?_⟩
  · have hchannels := congrArg (fun v : State => { v with channels := u.channels }) hk
    rw [hcounty]
    exact hu.trans hchannels
  all_goals rw [hcounty]; assumption

/-- Where no channel changes, the filter and the county alone do. -/
theorem State.OwnChanged.keeps_channels {f : FilterRecord} {e : Entry} (h : s.OwnChanged p f e t)
    (hc : t.channels = s.channels) : t = { s with filters := t.filters, toCounty := t.toCounty } := by
  have hk := h.keeps
  rw [hc] at hk
  have hf : t.filters = tset s.filters p f := by rw [hk]
  rw [hf]
  exact hk

theorem State.OwnChanged.filters {f : FilterRecord} {e : Entry} (h : s.OwnChanged p f e t) :
    t.filters = tset s.filters p f := by rw [h.keeps]

theorem State.OwnChanged.cp {f : FilterRecord} {e : Entry} (h : s.OwnChanged p f e t) : t.cp = s.cp := by rw [h.keeps]

/-- The age of an entry whose base time is now. -/
theorem Entry.age_of_fresh {e : Entry} {now : Time} (hb : e.ageBase = 0) (ht : e.baseTime = now) : e.age now = 0 := by
  rw [Entry.age, hb, ht, since_self]
  rfl

theorem freshOwnEntry_item (c : Ctx) (p : Nat) (k : Kind) (state : EntryState) (st : Stamp) (occ : Nat)
    (affected : Option Nat) (old : Option Entry) : (freshOwnEntry c p k state st occ affected old).item c =
      ⟨c.number, p, st, k, c.cfg.severityOf k, state.toItem, occ, 0, c.now, c.cfg.hopBudget, none, affected⟩ := by
  simp [Entry.item, freshOwnEntry, Entry.age_of_fresh]

/-- Settles O16: the onset is an own change that stores a fresh ACTIVE entry. -/
theorem onsetDeclaresFault : Obligations.OnsetDeclaresFault := by
  unfold Obligations.OnsetDeclaresFault
  refine ⟨fun s i => ⟨fun n r => s.suppliedLamp_iff i n r, s.affectedCount_eq i⟩, ?_⟩
  intro s p k f c hd hon hroom hstamp st occ affected t
  have hchanged : s.OwnChanged p ⟨.fault k, min 63 (f.p + c.up), some k, if f.l = some k then min 15 (f.r + 1) else 1, occ⟩
      (freshOwnEntry s.ctx p k .active st occ affected (findEntry s.view s.number p)) t := by
    have ht : t = s.declareOnset p k (f.raise c k) := State.applySample_onset hd hon
    rw [ht]
    exact State.declareChange_changes hstamp hroom rfl rfl rfl
  have hchannels : t.channels = s.channels := by
    have ht : t = s.declareOnset p k (f.raise c k) := State.applySample_onset hd hon
    rw [ht]
    rfl
  refine ⟨hchanged.keeps_channels hchannels, hchanged.filters, hchanged.county, hchanged.overflow, hchanged.found,
    hchanged.others, ?_⟩
  rw [hchanged.offered, freshOwnEntry_item]
  rfl

/-- The item of an own entry that stands for the declared state ACTIVE or a cleared one. -/
theorem Entry.item_of_own {e : Entry} {st : Stamp} {state : ItemState} (ho : e.origin = s.number) (hp : e.point = p)
    (hs : e.stamp = some st) (hstate : e.state.toItem = state) : e.item s.ctx =
      ⟨s.number, p, st, e.kind, e.severity, state, e.occurrences, e.age s.now, s.now, s.cfg.hopBudget, e.ack,
        e.affected⟩ := by
  rw [Entry.item, ho, hp, hs, hstate]
  rfl

/-- The own entry after a clear, RETIRED with its ack part retargeted or CLEARED, in one record (R17). -/
theorem clearedOwnEntry_eq (c : Ctx) (st : Stamp) (affected : Option Nat) (e : Entry) :
    clearedOwnEntry c st affected e = { e with
      state := if e.ack.isSome then .retired else .cleared, stamp := some st, ageBase := 0, baseTime := c.now
      lastHeard := c.now, affected := affected
      retireTime := if e.ack.isSome then some (c.cfg.retireAt c.now) else e.retireTime } := by
  simp only [clearedOwnEntry]
  split <;> rfl

/-- The declaration of a kind change, where the point's own entry stands. -/
theorem State.declareKind_changes {k : Kind} {f : FilterRecord} {e : Entry} (hstamp : s.stampFree = true)
    (he : findEntry s.view s.number p = some e) :
    s.OwnChanged p { f with declared := .fault k } (changedOwnEntry s.ctx k ⟨s.ownStart, s.nextChange⟩ e)
      (s.declareKind p k f) ∧ (s.declareKind p k f).channels = s.channels := by
  obtain ⟨-, ho, hp⟩ := findEntry_mem he
  have hroom : s.roomFor p = true := (s.roomFor_iff p).2 (.inr (by rw [he]; rfl))
  refine ⟨State.declareChange_changes hstamp hroom ?_ ho hp, rfl⟩
  rw [he]
  rfl

/-- The declaration of a clear, where the point's own entry stands. -/
theorem State.declareClear_changes {k : Kind} {f : FilterRecord} {e : Entry} (hstamp : s.stampFree = true)
    (he : findEntry s.view s.number p = some e) :
    s.OwnChanged p { f with declared := .normal }
      (clearedOwnEntry s.ctx ⟨s.ownStart, s.nextChange⟩ (s.pointAffected p) e) (s.declareClear p k f) ∧
    ∀ n,
      (∀ r, s.mainsPoint p → s.suppliedLamp (p - 24) n = some r → r.demand = true →
        (s.declareClear p k f).channel n = .lamp { r with tw := some s.now }) ∧
      ((¬ ∃ r, s.mainsPoint p ∧ s.suppliedLamp (p - 24) n = some r ∧ r.demand = true) →
        (s.declareClear p k f).channel n = s.channel n) := by
  obtain ⟨-, ho, hp⟩ := findEntry_mem he
  have hroom : s.roomFor p = true := (s.roomFor_iff p).2 (.inr (by rw [he]; rfl))
  obtain ⟨hkeyo, hkeyp, -, -⟩ := clearedOwnEntry_keeps s.ctx ⟨s.ownStart, s.nextChange⟩ (s.pointAffected p) e
  obtain ⟨hleft, hchannels⟩ := State.leftFault_spec ((s.setFilter p { f with declared := .normal }).declareChange p
    fun st old => clearedOwnEntry s.ctx st (s.pointAffected p)
      (old.getD (freshOwnEntry s.ctx p k .active st f.occurrences none none))) p
  refine ⟨(State.declareChange_changes hstamp hroom ?_ (hkeyo.trans ho) (hkeyp.trans hp)).of_channels hleft, hchannels⟩
  rw [he]
  rfl

/-- Settles O17: the kind change and the clear are own changes of the entry that stands. -/
theorem kindChangeAndClear : Obligations.KindChangeAndClear := by
  unfold Obligations.KindChangeAndClear
  intro s p d e f c hd he hstamp st run affected changed
  obtain ⟨-, ho, hp⟩ := findEntry_mem he
  have hof : ∀ {t : State} {f' : FilterRecord} {e' : Entry}, s.OwnChanged p f' e' t → e'.origin = e.origin →
      e'.point = e.point → e'.stamp = some st →
      e'.state.toItem = (if e'.state = .active then .active else .cleared) → changed t f' e' := by
    intro t f' e' h ho' hp' hs hstate
    refine ⟨h.keeps, h.county, h.overflow, h.found, h.others, ?_⟩
    rw [h.offered, Entry.item_of_own (ho'.trans ho) (hp'.trans hp) hs hstate]
  refine ⟨fun k hk hconfirm => ?_, fun hoff => ?_⟩
  · have happly : s.applySample p (.abnormal k) = s.declareKind p k (f.raise c k) :=
      State.applySample_kindChange hd ⟨hk, hconfirm⟩
    obtain ⟨hchanged, hchannels⟩ := State.declareKind_changes (k := k) (f := f.raise c k) hstamp he
    rw [happly]
    exact ⟨hof hchanged rfl rfl rfl rfl, hchannels⟩
  · have happly : s.applySample p .normal = s.declareClear p d (f.lower c) := State.applySample_clear hd hoff
    obtain ⟨hchanged, hchannels⟩ := State.declareClear_changes (k := d) (f := f.lower c) hstamp he
    rw [clearedOwnEntry_eq] at hchanged
    rw [happly]
    refine ⟨hof hchanged rfl rfl rfl ?_, fun n => ⟨fun r h24 hm => (hchannels n).1 r ⟨h24, hm⟩, fun hnot => ?_⟩⟩
    · cases e.ack <;> rfl
    · exact (hchannels n).2 fun ⟨r, hm, hl, hon⟩ => hnot ⟨hm.1, hm.2, r, hl, hon⟩

/-! ## Requests taken (O18, O19) -/

theorem State.ready_iff (s : State) : s.ready = true ↔ s.live = true ∧ s.cp.port = .hunting := by
  simp [State.ready]

/-- The state in which a request's block answers: the port is REPLYING. -/
def State.taking (s : State) : State := { s with cp := ⟨.replying, [], none, none⟩ }

/-- A request within its ranges at a ready port is answered by its block. -/
theorem State.receive_answered {r : Request} {u : State} {st : Status} {data : List Byte} (hready : s.ready = true)
    (hr : r.inRange = true) (h : State.serve s.taking r = (u, some (st, data))) (hu : u.cp = s.taking.cp) :
    s.receive r = u.replied r.code st data := by
  obtain ⟨hlive, hport⟩ := s.ready_iff.1 hready
  rw [State.receive_ready ⟨hlive, hport, hr⟩, State.takeRequest_answered h, hu]
  rfl

/-- A request refused or answered without effect. -/
theorem State.receive_replied {r : Request} {st : Status} {data : List Byte} (hready : s.ready = true)
    (hr : r.inRange = true) (h : State.serve s.taking r = (s.taking, some (st, data))) :
    s.receive r = s.replied r.code st data := State.receive_answered (u := s.taking) hready hr h rfl

/-- What an own change makes where the port is REPLYING, it makes beside any console state. -/
theorem State.OwnChanged.untaken {f : FilterRecord} {e : Entry} (h : s.taking.OwnChanged p f e t) :
    s.OwnChanged p f e { t with cp := s.cp } := by
  obtain ⟨hk, hc, hv, hf, ho, hq⟩ := h
  exact ⟨congrArg (fun u : State => { u with cp := s.cp }) hk, hc, hv, hf, ho, hq⟩

/-- INHIBIT of a point in NORMAL or FAULT is an own change that stores a fresh INHIBITED entry. -/
theorem State.inhibitPoint_changes {f : FilterRecord} (fault : Option Kind) {k : Kind} (hstamp : s.stampFree = true)
    (hroom : s.roomFor p = true)
    (hk : fault = some k ∨ fault = none ∧ k = match findEntry s.view s.number p with
      | some e => e.kind
      | none => s.cfg.principalKind p) :
    s.OwnChanged p { f with declared := .inhibited } (freshOwnEntry s.ctx p k .inhibited ⟨s.ownStart, s.nextChange⟩
      f.occurrences (s.pointAffected p) (findEntry s.view s.number p)) (s.inhibitPoint p f fault) ∧
    ∀ n,
      (∀ r, fault ≠ none → s.mainsPoint p → s.suppliedLamp (p - 24) n = some r → r.demand = true →
        (s.inhibitPoint p f fault).channel n = .lamp { r with tw := some s.now }) ∧
      ((fault = none ∨ ¬ ∃ r, s.mainsPoint p ∧ s.suppliedLamp (p - 24) n = some r ∧ r.demand = true) →
        (s.inhibitPoint p f fault).channel n = s.channel n) := by
  cases fault with
  | none =>
    refine ⟨State.declareChange_changes hstamp hroom ?_ rfl rfl, fun n => ⟨fun r h => absurd rfl h, fun _ => rfl⟩⟩
    obtain ⟨-, hk⟩ := hk.resolve_left nofun
    cases he : findEntry s.view s.number p with
    | none => rw [he] at hk; rw [hk]; rfl
    | some e => rw [he] at hk; rw [hk]; rfl
  | some k' =>
    obtain rfl : k' = k := Option.some.inj (hk.resolve_right fun h => nomatch h.1)
    obtain ⟨hleft, hchannels⟩ := State.leftFault_spec ((s.setFilter p { f with declared := .inhibited }).declareChange p
      fun st old => freshOwnEntry s.ctx p k' .inhibited st f.occurrences (s.pointAffected p) old) p
    refine ⟨(State.declareChange_changes hstamp hroom rfl rfl rfl).of_channels hleft, fun n => ⟨fun r _ => (hchannels n).1 r,
      fun h => (hchannels n).2 (h.resolve_left nofun)⟩⟩

/-- INHIBIT at a port that is ready. -/
theorem exec_inhibit_answered {u : State} {st : Status} {p : Byte} (hready : s.ready = true)
    (h : s.taking.inhibit p.toNat = (u, st)) (hu : u.cp = s.taking.cp) :
    exec (.inhibit p) s = .next (u.replied 0x0A st []) := by
  have hserve : State.serve s.taking (.inhibit p) = (u, some (st, [])) := by
    show (s.taking.inhibit p.toNat).1.answer (s.taking.inhibit p.toNat).2 [] = _
    rw [h]
    rfl
  exact congrArg Host.Outcome.next (State.receive_answered hready rfl hserve hu)

/-- Settles O18: INHIBIT answers at the first condition of R15 that holds; its effect is an own change. -/
theorem inhibitAnswersInOrder : Obligations.InhibitAnswersInOrder := by
  unfold Obligations.InhibitAnswersInOrder
  intro s p hready n f
  have hrun : s.mode = .run → ¬ s.taking.mode = .listen := fun h h' => by
    rw [show s.taking.mode = s.mode from rfl, h] at h'
    cases h'
  have hanswers : ∀ {st : Status}, s.taking.inhibit p.toNat = (s.taking, st) →
      exec (.inhibit p) s = .next (s.replied 0x0A st []) := fun h =>
    exec_inhibit_answered (u := s.taking) hready h rfl
  refine ⟨fun hm => hanswers (if_pos hm), fun hm hp => hanswers ?_, fun hm hp hd => hanswers ?_, fun hm hp hd => hanswers ?_,
    fun k hm hk hroom hstamp => ?_⟩
  · rw [State.inhibit, if_neg (hrun hm), if_pos hp]
  · rw [State.inhibit, if_neg (hrun hm), if_neg (Nat.not_lt.2 hp)]
    rw [show (s.taking.filter p.toNat).declared = .unused from hd]
  · rw [State.inhibit, if_neg (hrun hm), if_neg (Nat.not_lt.2 hp)]
    rw [show (s.taking.filter p.toNat).declared = .inhibited from hd]
  · obtain ⟨fault, hinhibit, hk, hd⟩ : ∃ fault,
        s.taking.inhibit n = ((s.taking.inhibitPoint n f fault).settle, .ok) ∧
        (fault = some k ∨ fault = none ∧ k = match findEntry s.view s.number n with
          | some e => e.kind
          | none => s.cfg.principalKind n) ∧ (f.declared = .normal ↔ fault = none) := by
      have hused : f.declared ≠ .unused := by
        rcases hk with ⟨hd, -⟩ | ⟨-, hd⟩ <;> rw [hd] <;> nofun
      have hp : ¬ 31 < n := Nat.not_lt.2 (Nat.le_of_lt_succ (filter_lt_of_used hused))
      rcases hk with ⟨hd, hk⟩ | ⟨-, hd⟩
      · refine ⟨none, ?_, .inr ⟨rfl, hk⟩, by simp [hd]⟩
        rw [State.inhibit, if_neg (hrun hm), if_neg hp]
        rw [show (s.taking.filter n).declared = .normal from hd]
        rfl
      · refine ⟨some k, ?_, .inl rfl, by simp [hd]⟩
        rw [State.inhibit, if_neg (hrun hm), if_neg hp]
        rw [show (s.taking.filter n).declared = .fault k from hd]
        rfl
    obtain ⟨hchanged, hchannels⟩ := State.inhibitPoint_changes (s := s.taking) (f := f) fault hstamp hroom hk
    have hcp : (s.taking.inhibitPoint n f fault).settle.cp = s.taking.cp :=
      (State.settle_cp _).trans hchanged.cp
    obtain ⟨hkeeps, hcounty, hview, hfound, hothers, hoffered⟩ := hchanged.untaken
    have hexec := exec_inhibit_answered hready hinhibit hcp
    rw [show s.taking.ctx = s.ctx from rfl, freshOwnEntry_item] at hoffered
    refine ⟨{ s.taking.inhibitPoint n f fault with cp := s.cp }, hexec, hkeeps, hcounty, hview, hfound, hothers, hoffered, fun m =>
      ⟨fun r hnormal h24 hm => (hchannels m).1 r (mt hd.2 hnormal) ⟨h24, hm⟩, fun hnot => (hchannels m).2 ?_⟩⟩
    rcases hnot with hnot | hnot
    · exact .inl (hd.1 hnot)
    · exact .inr fun ⟨r, hm, hl, hon⟩ => hnot ⟨hm.1, hm.2, r, hl, hon⟩

/-- A channel's record with its warm-up restarted, where it is a lamp's (R30). -/
def Channel.warmed (now : Time) (x : Channel) : Channel :=
  match x with
  | .lamp r => .lamp (r.warmRestart now)
  | .loop _ => x
  | .off _ _ => x

theorem State.releaseWarmUp_eq (s : State) (p : Nat) :
    s.releaseWarmUp p = s.setChannel p ((s.channel p).warmed s.now) := by
  have hsame := s.setChannel_channel p
  unfold State.releaseWarmUp
  split
  · rename_i r hr
    split
    · rw [hr]
      rfl
    · rename_i hp
      rw [State.setChannel, tset_outside _ _ (Nat.not_lt.1 hp)]
  all_goals
    rename_i hr
    rw [hr] at hsame ⊢
    exact hsame.symm

theorem State.releaseWarmUp_keeps (s : State) (p : Nat) :
    s.releaseWarmUp p = { s with channels := (s.releaseWarmUp p).channels } := by
  rw [s.releaseWarmUp_eq]
  rfl

theorem Channel.warmed_of_not_lit {x : Channel} {now : Time} (h : ∀ r, x = .lamp r → ¬ r.demand = true) :
    x.warmed now = x := by
  cases x with
  | lamp r => exact congrArg Channel.lamp (LampRecord.warmRestart_of_off (h r rfl))
  | loop r => rfl
  | off a b => rfl

/-- A released lamp's warm-up (R30): the point's own channel alone may change. -/
theorem State.releaseWarmUp_channels (s : State) (p : Nat) :
    (∀ m, m ≠ p → (s.releaseWarmUp p).channel m = s.channel m) ∧
    (∀ r, p < 16 → s.channel p = .lamp r → r.demand = true →
      (s.releaseWarmUp p).channel p = .lamp { r with tw := some s.now }) ∧
    ((∀ r, ¬ (p < 16 ∧ s.channel p = .lamp r ∧ r.demand = true)) → (s.releaseWarmUp p).channel p = s.channel p) := by
  rw [s.releaseWarmUp_eq]
  refine ⟨fun m hm => ?_, fun r hp hr hon => ?_, fun hnot => ?_⟩
  · rw [State.channel_setChannel, if_neg fun h => hm h.1.symm]
  · rw [State.channel_setChannel, if_pos ⟨rfl, hp⟩, hr]
    exact congrArg Channel.lamp (LampRecord.warmRestart_of_on hon)
  · rw [State.channel_setChannel]
    split
    · rename_i hp
      exact Channel.warmed_of_not_lit fun r hr hon => hnot r ⟨hp.2, hr, hon⟩
    · rfl

/-- RELEASE of an INHIBITED point whose own entry stands. -/
theorem State.releasePoint_changes {f : FilterRecord} {e : Entry} (hstamp : s.stampFree = true)
    (he : findEntry s.view s.number p = some e) :
    s.OwnChanged p { f with declared := .normal, p := 0, r := 0, l := none }
      (releasedOwnEntry s.ctx ⟨s.ownStart, s.nextChange⟩ (s.pointAffected p) e) (s.releasePoint p f) ∧
    (∀ m, m ≠ p → (s.releasePoint p f).channel m = s.channel m) ∧
    (∀ r, p < 16 → s.channel p = .lamp r → r.demand = true →
      (s.releasePoint p f).channel p = .lamp { r with tw := some s.now }) ∧
    ((∀ r, ¬ (p < 16 ∧ s.channel p = .lamp r ∧ r.demand = true)) → (s.releasePoint p f).channel p = s.channel p) := by
  obtain ⟨-, ho, hp⟩ := findEntry_mem he
  have hroom : s.roomFor p = true := (s.roomFor_iff p).2 (.inr (by rw [he]; rfl))
  have hchannels := State.releaseWarmUp_channels
    ((s.setFilter p { f with declared := .normal, p := 0, r := 0, l := none }).declareChange p
      fun st old => releasedOwnEntry s.ctx st (s.pointAffected p)
        (old.getD (freshOwnEntry s.ctx p (s.cfg.principalKind p) .inhibited st f.occurrences none none))) p
  refine ⟨State.OwnChanged.of_channels (State.declareChange_changes hstamp hroom ?_ ho hp) (State.releaseWarmUp_keeps _ p),
    hchannels⟩
  rw [he]
  rfl

/-- RELEASE at a port that is ready. -/
theorem exec_release_answered {u : State} {st : Status} {p : Byte} (hready : s.ready = true)
    (h : s.taking.release p.toNat = (u, st)) (hu : u.cp = s.taking.cp) :
    exec (.release p) s = .next (u.replied 0x0B st []) := by
  have hserve : State.serve s.taking (.release p) = (u, some (st, [])) := by
    show (s.taking.release p.toNat).1.answer (s.taking.release p.toNat).2 [] = _
    rw [h]
    rfl
  exact congrArg Host.Outcome.next (State.receive_answered hready rfl hserve hu)

/-- Settles O19: RELEASE answers at the first condition of R18 that holds; its effect is an own change. -/
theorem releaseAnswersInOrder : Obligations.ReleaseAnswersInOrder := by
  unfold Obligations.ReleaseAnswersInOrder
  intro s p hready n f
  have hrun : s.mode = .run → ¬ s.taking.mode = .listen := fun h h' => by
    rw [show s.taking.mode = s.mode from rfl, h] at h'
    cases h'
  have hanswers : ∀ {st : Status}, s.taking.release p.toNat = (s.taking, st) →
      exec (.release p) s = .next (s.replied 0x0B st []) := fun h =>
    exec_release_answered (u := s.taking) hready h rfl
  refine ⟨fun hm => hanswers (if_pos hm), fun hm hp => hanswers ?_, fun hm hp hd => hanswers ?_, fun hm hp hd => hanswers ?_,
    fun e hm hd he hstamp => ?_⟩
  · rw [State.release, if_neg (hrun hm), if_pos hp]
  · rw [State.release, if_neg (hrun hm), if_neg (Nat.not_lt.2 hp)]
    rw [show (s.taking.filter p.toNat).declared = .unused from hd]
  · rw [State.release, if_neg (hrun hm), if_neg (Nat.not_lt.2 hp)]
    rcases hd with hd | ⟨k, hd⟩
    · rw [show (s.taking.filter p.toNat).declared = .normal from hd]
    · rw [show (s.taking.filter p.toNat).declared = .fault k from hd]
  · have hused : f.declared ≠ .unused := by rw [hd]; nofun
    have hp : ¬ 31 < n := Nat.not_lt.2 (Nat.le_of_lt_succ (filter_lt_of_used hused))
    have hrelease : s.taking.release n = ((s.taking.releasePoint n f).settle, .ok) := by
      rw [State.release, if_neg (hrun hm), if_neg hp]
      rw [show (s.taking.filter n).declared = .inhibited from hd]
      rfl
    obtain ⟨hchanged, hchannels⟩ := State.releasePoint_changes (s := s.taking) (f := f) hstamp he
    have hcp : (s.taking.releasePoint n f).settle.cp = s.taking.cp := (State.settle_cp _).trans hchanged.cp
    obtain ⟨hkeeps, hcounty, hview, hfound, hothers, hoffered⟩ := hchanged.untaken
    obtain ⟨-, ho, hpt⟩ := findEntry_mem he
    have hitem := Entry.item_of_own (s := s) (state := .cleared)
      (e := releasedOwnEntry s.ctx ⟨s.ownStart, s.nextChange⟩ (s.pointAffected n) e) ho hpt rfl rfl
    have hage : (releasedOwnEntry s.ctx ⟨s.ownStart, s.nextChange⟩ (s.pointAffected n) e).age s.now = 0 :=
      Entry.age_of_fresh rfl rfl
    rw [hage] at hitem
    have hexec := exec_release_answered hready hrelease hcp
    exact ⟨{ s.taking.releasePoint n f with cp := s.cp }, hexec, hkeeps, hcounty, hview, hfound, hothers,
      hoffered.trans (congrArg (fun i => offerItem s.ctx s.roll _ ⟨.fault i, e.severity, .own, 0, 0⟩ s.toQueueSide) hitem), hchannels⟩

end Sys2Proof.Machine

/-! The Sign Line Controller: the poll cycle (O23), a transaction's outcome (O24) and its end (O25), SIGN STOP and SIGN START
(O26). -/

namespace Sys2Proof.Machine

variable {s : State}

/-! ## The next sign of a cycle (R64) -/

/-- The first match in an ascending list is the least. -/
theorem find?_of_least {P : Nat → Bool} {b : Nat} (hb : P b = true) : ∀ {l : List Nat}, l.Pairwise (· < ·) → b ∈ l →
    (∀ d ∈ l, P d = true → b ≤ d) → l.find? P = some b
  | x :: l, hsorted, hmem, hleast => by
    obtain ⟨hx, hl⟩ := List.pairwise_cons.1 hsorted
    rcases List.mem_cons.1 hmem with rfl | hmem
    · rw [List.find?_cons_of_pos hb]
    · have hnot : ¬ P x = true := fun h => absurd (hx b hmem) (Nat.not_lt.2 (hleast x List.mem_cons_self h))
      rw [List.find?_cons_of_neg hnot]
      exact find?_of_least hb hl hmem fun d hd => hleast d (List.mem_cons_of_mem _ hd)

theorem mem_signAddresses (a : Nat) : a ∈ signAddresses ↔ 1 ≤ a ∧ a ≤ 8 := by
  simp only [signAddresses, List.mem_cons, List.not_mem_nil, or_false]
  omega

/-- A configured sign. -/
def SignPresent (cfg : Settings) (a : Nat) : Prop := 1 ≤ a ∧ a ≤ 8 ∧ (cfg.signAt a).present = true

variable {cfg : Settings} {a b : Nat}

theorem nextSign_of_least (hb : SignPresent cfg b) (hab : a < b) (hleast : ∀ d, SignPresent cfg d → a < d → b ≤ d) :
    nextSign cfg a = some b := by
  obtain ⟨h1, h8, hp⟩ := hb
  refine find?_of_least (by simp [hab, hp]) (by decide) ((mem_signAddresses b).2 ⟨h1, h8⟩) fun d hd hP => ?_
  obtain ⟨hd1, hd8⟩ := (mem_signAddresses d).1 hd
  simp only [Bool.and_eq_true, decide_eq_true_eq] at hP
  exact hleast d ⟨hd1, hd8, hP.2⟩ hP.1

theorem nextSign_none (h : ∀ d, SignPresent cfg d → d ≤ a) : nextSign cfg a = none := by
  refine List.find?_eq_none.2 fun d hd hP => ?_
  obtain ⟨hd1, hd8⟩ := (mem_signAddresses d).1 hd
  simp only [Bool.and_eq_true, decide_eq_true_eq] at hP
  exact Nat.not_lt.2 (h d ⟨hd1, hd8, hP.2⟩) hP.1

theorem Slc.startCycle_of_next {c : Slc} (h : nextSign cfg 0 = some b) : c.startCycle cfg = c.send b := by
  simp only [Slc.startCycle, h]

theorem Slc.afterGuard_next {c : Slc} (hc : c.current = some a) (h : nextSign cfg a = some b) :
    c.afterGuard cfg = c.send b := by
  simp only [Slc.afterGuard, hc, Option.getD_some, h]

theorem Slc.afterGuard_last {c : Slc} (hc : c.current = some a) (h : nextSign cfg a = none) : c.afterGuard cfg =
    if c.owed then { c with owed := false }.startCycle cfg
    else { c with state := .waiting, current := none, guardStart := none, timeoutStart := none } := by
  simp only [Slc.afterGuard, hc, Option.getD_some, h]

theorem exec_guardExpiry (h : s.slc.state = .guarding) :
    exec .guardExpiry s = .next { s with slc := s.slc.afterGuard s.cfg } := by
  simp only [exec, execGuardExpiry, h, if_true]

/-- Settles O23: `nextSign` is the present sign of lowest address above the current one. -/
theorem pollCycleGoesByAddress : Obligations.PollCycleGoesByAddress := by
  unfold Obligations.PollCycleGoesByAddress
  intro s present lowestAbove sends
  have hnext : ∀ {a b}, lowestAbove a b → nextSign s.cfg a = some b := fun h => nextSign_of_least h.1 h.2.1 h.2.2
  refine ⟨fun h => ?_, fun b h hb => ?_, fun h => ?_, fun h => ?_, fun a b h hc hb => ?_, fun a b h hc hlast ho hb => ?_,
    fun a h hc hlast ho => ?_⟩
  · simp only [exec, execPollCycleDue, h]
  · have hexec : exec .pollCycleDue s = .next { s with slc := s.slc.startCycle s.cfg } := by
      simp only [exec, execPollCycleDue, h]
    rw [hexec, Slc.startCycle_of_next (hnext hb)]
    rfl
  · rcases h with h | h | h <;> simp only [exec, execPollCycleDue, h]
  · simp only [exec, execSignRequestEnd, h, if_true]
  · rw [exec_guardExpiry h, Slc.afterGuard_next hc (hnext hb)]
    rfl
  · rw [exec_guardExpiry h, Slc.afterGuard_last hc (nextSign_none hlast), if_pos ho, Slc.startCycle_of_next (hnext hb)]
    rfl
  · rw [exec_guardExpiry h, Slc.afterGuard_last hc (nextSign_none hlast), if_neg (by rw [ho]; nofun)]

/-! ## Outcomes (R61, R67) -/

/-- Settles O24: the tests of `transactionOutcome`, one after the other. -/
theorem transactionOutcomeOrder : Obligations.TransactionOutcomeOrder := by
  unfold Obligations.TransactionOutcomeOrder
  intro a b hlen first sum
  have hfirst : (b.map (·.value)).head? = first := by simp [first, List.head?_map]
  have hany : ∀ f : SignChar → Bool, (∀ x ∈ b, f x = false) ↔ ¬ b.any f = true := fun f => by simp
  have hex : ∀ f : SignChar → Bool, (∃ x ∈ b, f x = true) ↔ b.any f = true := fun f => List.any_eq_true.symm
  have hnil : b = [] ↔ b.length = 0 := List.length_eq_zero_iff.symm
  simp only [hany, hex, hnil]
  have hout : transactionOutcome a b =
      if b.length = 0 then .noReply
      else if b.length < 6 then .garbled .short
      else if b.any (·.framing) then .garbled .framing
      else if b.any (·.marker) then .garbled .marker
      else if first ≠ some (BitVec.ofNat 8 a) then .garbled .address
      else if sum ≠ 0 then .garbled .check
      else .good := by
    rw [← hfirst]
    rfl
  by_cases h0 : b.length = 0
  · rw [if_pos h0] at hout
    simp [hout, h0]
  rw [if_neg h0] at hout
  by_cases h6 : b.length < 6
  · rw [if_pos h6] at hout
    have hsix : b.length ≠ 6 := by omega
    simp [hout, h0, h6, hsix]
    omega
  have hsix : b.length = 6 := by omega
  rw [if_neg h6] at hout
  by_cases hf : b.any (·.framing) = true
  · rw [if_pos hf] at hout
    simp [hout, hsix, hf]
  rw [if_neg hf] at hout
  by_cases hm : b.any (·.marker) = true
  · rw [if_pos hm] at hout
    simp [hout, hsix, hf, hm]
  rw [if_neg hm] at hout
  by_cases ha : first = some (BitVec.ofNat 8 a)
  · rw [if_neg (not_not.2 ha)] at hout
    by_cases hs : sum = 0
    · rw [if_neg (not_not.2 hs)] at hout
      simp [hout, hsix, hf, hm, ha, hs]
    · rw [if_pos hs] at hout
      simp only [hout, hsix, hf, hm, ha, reduceCtorEq, SignOutcome.garbled.injEq, false_iff, true_and,
        not_false_eq_true]
      simpa using hs
  · rw [if_pos ha] at hout
    simp [hout, hsix, hf, hm, ha]

/-! ## The end of a transaction (O25) -/

theorem State.setSignRecord_of_address (r : SignRecord) (h1 : 1 ≤ a) :
    s.setSignRecord a r = { s with signs := tset s.signs (a - 1) r } := by
  simp only [State.setSignRecord, h1, if_true]

/-- The county after a transaction has been counted by its outcome (R67). -/
theorem State.countOutcome_eq (s : State) (o : SignOutcome) :
    s.countOutcome o = { s with toCounty := (s.countOutcome o).toCounty } := by
  cases o <;> rfl

/-- The end of a transaction with the sign at `a`: the record taken, the outcome counted, GUARD entered, the sample delivered
(R66, R67, R69). -/
theorem State.endTransaction_of_outcome {o : SignOutcome} (hc : s.slc.current = some a) (h1 : 1 ≤ a)
    (ho : transactionOutcome a s.slc.buffer = o) :
    let g := replyRecord s.slc.buffer s.now
    let cls := outcomeClass (s.cfg.signAt a).pixelLimit o g
    s.endTransaction = State.settle (State.applySample { s with
      toCounty := (s.countOutcome o).toCounty
      signs := tset s.signs (a - 1) ⟨some (o, s.now), some cls, if o = .good then some g else (s.signRecord a).lastGood⟩
      slc := { s.slc with state := .guarding, guardStart := some s.clock } } (15 + a) cls) := by
  have hpoint : signPoint a = 15 + a := by unfold signPoint; omega
  have hcurrent : s.slc.current.getD 0 = a := by rw [hc]; rfl
  simp only [State.endTransaction, hcurrent, ho, State.setSignRecord_of_address _ h1, hpoint]
  cases o <;> rfl

/-- Settles O25: the sixth character and the time-out end the transaction alike. -/
theorem transactionEnds : Obligations.TransactionEnds := by
  unfold Obligations.TransactionEnds
  intro s v marker framing longer
  refine ⟨fun h => ⟨by simp only [exec, execSignCharacterReceived, if_neg h],
    by simp only [exec, execReplyTimeoutExpiry, if_neg h]⟩, fun h hl => ?_, ?_⟩
  · simp only [exec, execSignCharacterReceived, if_pos h]
    rw [if_neg (Nat.not_le.2 hl)]
  · intro a h hc h1 h8 ends goes
    have hgoes : ∀ {i : Instr} {b : List SignChar},
        exec i s = .next { s with slc := { s.slc with buffer := b } }.endTransaction → goes i b := by
      intro i b hexec
      have hend : ∀ {o : SignOutcome}, transactionOutcome a b = o → _ := fun ho =>
        State.endTransaction_of_outcome (s := { s with slc := { s.slc with buffer := b } }) hc h1 ho
      refine ⟨fun ho => ?_, fun g ho => ?_, fun c0 c1 c2 c3 c4 c5 hb ho => ?_⟩
      · rw [hexec, hend ho]
        rfl
      · rw [hexec, hend ho]
        rfl
      · rw [hexec, hend ho]
        subst hb
        rfl
    refine ⟨fun hl => hgoes ?_, hgoes ?_⟩
    · simp only [exec, execSignCharacterReceived, if_pos h]
      rw [if_pos hl]
    · simp only [exec, execReplyTimeoutExpiry, if_pos h]

/-! ## SIGN STOP and SIGN START (O26) -/

/-- SIGN STOP at a port that is ready answers OK and the state as the effect leaves it. -/
theorem exec_signStop_answered {u : State} (hready : s.ready = true) (h : s.taking.signStop = u)
    (hu : u.cp = s.taking.cp) : exec .signStop s = .next (u.replied 0x11 .ok [u.slc.state.code]) := by
  subst h
  exact congrArg Host.Outcome.next (State.receive_answered hready rfl rfl hu)

theorem exec_signStart_answered {u : State} {st : Status} {data : List Byte} (hready : s.ready = true)
    (h : s.taking.signStart = (u, st)) (hdata : data = if st = .ok then [u.slc.state.code] else [])
    (hu : u.cp = s.taking.cp) : exec .signStart s = .next (u.replied 0x12 st data) := by
  have hserve : State.serve s.taking .signStart = (u, some (st, data)) := by
    show s.taking.signStart.1.answer s.taking.signStart.2 _ = _
    rw [h, hdata]
    rfl
  exact congrArg Host.Outcome.next (State.receive_answered hready rfl hserve hu)

theorem State.abandonTransaction_of_current (hc : s.slc.current = some a) (h1 : 1 ≤ a) : s.abandonTransaction =
    { s with
      signs := tset s.signs (a - 1)
        { s.signRecord a with lastOutcome := some (.abandoned, s.now), latestClass := some .neutral } } := by
  have hcurrent : s.slc.current.getD 0 = a := by rw [hc]; rfl
  simp only [State.abandonTransaction, hcurrent, State.setSignRecord_of_address _ h1, State.applySample_neutral]

/-- Settles O26: SIGN STOP by the controller's state, SIGN START at the first condition of R72 that holds. -/
theorem signStopAndStart : Obligations.SignStopAndStart := by
  unfold Obligations.SignStopAndStart
  intro s hready stopped present
  refine ⟨fun h => ?_, fun h => ?_, fun a h hc h1 h8 => ?_, fun h => ?_, fun h hnone => ?_, fun a h ha hleast => ?_⟩
  · have hstop : s.taking.signStop = s.taking := by
      rw [State.signStop, show s.taking.slc.state = .stopped from h]
    rw [exec_signStop_answered hready hstop rfl, show s.taking.slc.state = .stopped from h]
    rfl
  · have hstop : s.taking.signStop = { s.taking with slc := stopped } := by
      rcases h with h | h <;> rw [State.signStop, show s.taking.slc.state = _ from h] <;> rfl
    have hexec := exec_signStop_answered hready hstop rfl
    exact hexec
  · have habandon := State.abandonTransaction_of_current (s := s.taking) hc h1
    have hstop : s.taking.signStop = { s.taking.abandonTransaction with slc := stopped } := by
      rcases h with h | h <;> rw [State.signStop, show s.taking.slc.state = _ from h] <;> rfl
    rw [habandon] at hstop
    have hexec := exec_signStop_answered hready hstop rfl
    exact hexec
  · exact exec_signStart_answered (u := s.taking) hready (if_pos h) rfl rfl
  · have hstate : s.taking.slc.state = .stopped := h
    have hnext : nextSign s.taking.cfg 0 = none := nextSign_none fun d hd => absurd hd (hnone d)
    refine exec_signStart_answered (u := s.taking) hready ?_ rfl rfl
    rw [State.signStart, if_neg (not_not.2 hstate), if_pos hnext]
  · have hstate : s.taking.slc.state = .stopped := h
    have hnext : nextSign s.taking.cfg 0 = some a := nextSign_of_least ha ha.1 fun b hb _ => hleast b hb
    have hstart : s.taking.signStart =
        ({ s.taking with slc := ⟨.sending, some s.clock, false, some a, [], none, none⟩ }, .ok) := by
      rw [State.signStart, if_neg (not_not.2 hstate), if_neg (by rw [hnext]; nofun), Slc.startCycle_of_next hnext]
      rfl
    have hexec := exec_signStart_answered hready hstart rfl rfl
    exact hexec

end Sys2Proof.Machine

/-! The Trunk Controller: characters taken (O27), the carrier (O28), the end of an event (O29). -/

namespace Sys2Proof.Machine

variable {s : State} {v : Byte} {framing : Bool}

/-! ## Reception (O27) -/

/-- A controller that takes characters: in RUN or LISTEN and not blind (R148, R150). -/
def State.Receiving (s : State) : Prop := s.live = true ∧ s.trunk.blind = false

section Receiving

variable (h : s.Receiving)
include h

theorem State.trunkChar_hunting (hrx : s.trunk.rx = none) : s.trunkChar v framing =
    if v = 0x7E ∧ framing = false ∧ s.trunk.cd = true then
      State.settle { s with trunk := { s.trunk with rx := some ⟨none, []⟩ } }
    else s := by
  rw [State.trunkChar, if_neg (by simp [h.1, h.2]), hrx]

theorem State.trunkChar_framing {f : RxFrame} (hrx : s.trunk.rx = some f) :
    s.trunkChar v true = (s.abandonFrame .badFormat).settle := by
  rw [State.trunkChar, if_neg (by simp [h.1, h.2]), hrx]
  rfl

theorem State.trunkChar_length {cs : List Byte} (hrx : s.trunk.rx = some ⟨none, cs⟩) : s.trunkChar v false =
    if 4 ≤ v.toNat ∧ v.toNat ≤ 240 then { s with trunk := { s.trunk with rx := some ⟨some v.toNat, []⟩ } }
    else (s.abandonFrame .badFormat).settle := by
  rw [State.trunkChar, if_neg (by simp [h.1, h.2]), hrx]
  rfl

theorem State.trunkChar_extent {n : Nat} {cs : List Byte} (hrx : s.trunk.rx = some ⟨some n, cs⟩) : s.trunkChar v false =
    if cs.length + 1 = n + 2 then (s.endFrame n (cs ++ [v])).settle
    else { s with trunk := { s.trunk with rx := some ⟨some n, cs ++ [v]⟩ } } := by
  rw [State.trunkChar, if_neg (by simp [h.1, h.2]), hrx]
  simp only [List.length_append, List.length_singleton]
  rfl

end Receiving

section EndFrame

variable {n : Nat} {chars : List Byte}

theorem State.endFrame_badCheck (h : chars.drop n ≠ halfBytes (crc (byteOf n :: chars.take n))) :
    s.endFrame n chars = s.abandonFrame .badCheck := by
  simp only [State.endFrame, if_neg (Ne.symm h)]
  rfl

theorem State.endFrame_malformed (h : chars.drop n = halfBytes (crc (byteOf n :: chars.take n)))
    (hp : parseBulletin s.now (chars.take n) = none) : s.endFrame n chars = s.abandonFrame .badFormat := by
  unfold State.endFrame
  rw [if_pos h.symm]
  rw [show parseBulletin (State.now { s with trunk := { s.trunk with rx := none } }) (chars.take n) = none from hp]
  rfl

theorem State.endFrame_parsed {b : Bulletin} (h : chars.drop n = halfBytes (crc (byteOf n :: chars.take n)))
    (hp : parseBulletin s.now (chars.take n) = some b) : s.endFrame n chars =
      { s with trunk := { s.trunk with rx := none }
               toCounty := s.toCounty.hearBulletin s.ctx b.sender b.start b.items } := by
  unfold State.endFrame
  rw [if_pos h.symm]
  rw [show parseBulletin (State.now { s with trunk := { s.trunk with rx := none } }) (chars.take n) = some b from hp]
  rfl

end EndFrame

/-- Settles O27: one equation of `State.trunkChar` for each state of the receiver. -/
theorem trunkCharacterTaken : Obligations.TrunkCharacterTaken := by
  unfold Obligations.TrunkCharacterTaken
  intro s v framing taking char
  have hchar : exec char s = .next (s.trunkChar v framing) := rfl
  rw [hchar]
  refine ⟨fun h => ?_, fun hlive hblind => ?_⟩
  · rw [State.trunkChar, if_pos]
    rcases h with h | h <;> simp [h]
  · have h : s.Receiving := ⟨hlive, hblind⟩
    refine ⟨fun hrx hv hf hcd => ?_, fun hrx hnot => ?_, fun f hrx hf => ?_, fun cs hrx hf => ⟨fun hn => ?_, fun hn => ?_⟩,
      fun n cs hrx hf => ⟨fun hn => ?_, fun hn => ⟨fun hs => ?_, fun hs hp => ?_, fun b hs hp => ?_⟩⟩⟩
    · rw [State.trunkChar_hunting h hrx, if_pos ⟨hv, hf, hcd⟩]
    · rw [State.trunkChar_hunting h hrx, if_neg hnot]
    · rw [hf, State.trunkChar_framing h hrx]
      rfl
    · rw [hf, State.trunkChar_length h hrx, if_pos hn]
    · rw [hf, State.trunkChar_length h hrx, if_neg (by omega)]
      rfl
    · rw [hf, State.trunkChar_extent h hrx, if_neg hn]
    · rw [hf, State.trunkChar_extent h hrx, if_pos hn, State.endFrame_badCheck hs]
      rfl
    · rw [hf, State.trunkChar_extent h hrx, if_pos hn, State.endFrame_malformed hs hp]
      rfl
    · rw [hf, State.trunkChar_extent h hrx, if_pos hn, State.endFrame_parsed hs hp]

/-! ## The end of an event (O29) -/

theorem lfsrStep_top (r : Half) :
    (lfsrStep r).getLsbD 15 = (r.getLsbD 0 ^^ r.getLsbD 2 ^^ r.getLsbD 3 ^^ r.getLsbD 5) := by
  have hshift : (r >>> 1).getLsbD 15 = false := by simp
  rw [lfsrStep, BitVec.getLsbD_or, hshift, Bool.false_or]
  split
  · rename_i h
    rw [h]
    rfl
  · rename_i h
    rw [Bool.eq_false_iff.2 h]
    rfl

theorem lfsrStep_below (r : Half) {i : Nat} (hi : i < 15) : (lfsrStep r).getLsbD i = r.getLsbD (i + 1) := by
  have htop : ∀ i : Nat, i < 15 → (0x8000#16).getLsbD i = false := by decide
  rw [lfsrStep, BitVec.getLsbD_or, BitVec.getLsbD_ushiftRight, Nat.add_comm 1 i]
  split
  · rw [htop i hi, Bool.or_false]
  · rw [show (0 : BitVec 16).getLsbD i = false by simp, Bool.or_false]

/-- The seed of a station number is not 0 and holds the number in its high byte (R154). -/
theorem lfsrSeed_toNat {a : Nat} (start : Half) (h1 : 1 ≤ a) (h240 : a ≤ 240) :
    (lfsrSeed a start).toNat = a * 256 + start.toNat % 256 := by
  have hlow : start.toNat % 256 < 256 := Nat.mod_lt _ (by decide)
  have hvalue : (BitVec.ofNat 16 (a * 256 + start.toNat % 256)).toNat = a * 256 + start.toNat % 256 := by
    rw [BitVec.toNat_ofNat, Nat.mod_eq_of_lt (by omega)]
  have hne : BitVec.ofNat 16 (a * 256 + start.toNat % 256) ≠ 0 := fun h => by
    rw [h] at hvalue
    have hzero : (0 : BitVec 16).toNat = 0 := rfl
    omega
  simp only [lfsrSeed]
  rw [if_neg hne, hvalue]

/-- The access that opens on a clear channel (R153, R154). -/
def Trunk.opened (t : Trunk) (x : QItem) (clock : Instant) : Trunk :=
  { t with access := .defer, slot := some clock, lfsr := lfsrDraw t.lfsr
           count := 8 - x.severity + (lfsrDraw t.lfsr).toNat % 16 }

section Settled

variable {t : Trunk} {q : List QItem} {clock : Instant}

theorem Trunk.busy_eq_false_iff (t : Trunk) : t.busy = false ↔ t.cd = false ∧ t.rx = none := by
  simp [Trunk.busy]

theorem Trunk.settled_opens {x : QItem} (ha : t.access = .idle) (he : t.enable = .enabled) (hb : t.busy = false) :
    t.settled (x :: q) clock = t.opened x clock := by
  unfold Trunk.settled
  rw [ha]
  exact if_pos ⟨he, hb⟩

theorem Trunk.settled_waits (ha : t.access = .idle) (h : t.enable ≠ .enabled ∨ t.busy ≠ false ∨ q = []) :
    t.settled q clock = t := by
  unfold Trunk.settled
  rw [ha]
  simp only
  split
  · rename_i hclear
    obtain rfl : q = [] := (h.resolve_left (not_not.2 hclear.1)).resolve_left (not_not.2 hclear.2)
    rfl
  · rfl

theorem Trunk.settled_held (ha : t.access = .defer) (hb : t.busy = true) : t.settled q clock = { t with slot := none } := by
  have hbranch : t.settled q clock = if t.busy then { t with slot := none }
      else if t.slot.isNone then { t with slot := some clock } else t := by
    unfold Trunk.settled
    rw [ha]
  rw [hbranch, if_pos hb]

theorem Trunk.settled_runs (ha : t.access = .defer) (hb : t.busy = false) :
    t.settled q clock = { t with slot := some (t.slot.getD clock) } := by
  have hbranch : t.settled q clock = if t.busy then { t with slot := none }
      else if t.slot.isNone then { t with slot := some clock } else t := by
    unfold Trunk.settled
    rw [ha]
  rw [hbranch, if_neg (by simp [hb])]
  obtain ⟨enable, access, count, slot, cd, rx, lfsr, bulletin, since⟩ := t
  cases slot <;> rfl

theorem Trunk.settled_elsewhere (h : t.access = .off ∨ t.access = .keyup ∨ t.access = .send) : t.settled q clock = t := by
  unfold Trunk.settled
  rcases h with h | h | h <;> rw [h]

/-- On a busy channel a slot in DEFER is discarded, and nothing else happens (R155). -/
theorem Trunk.settled_of_busy (hb : t.busy = true) :
    t.settled q clock = { t with slot := if t.access = .defer then none else t.slot } := by
  by_cases hd : t.access = .defer
  · rw [Trunk.settled_held hd hb, if_pos hd]
  · have hsame : t.settled q clock = t := by
      cases ha : t.access with
      | defer => exact absurd ha hd
      | idle => exact Trunk.settled_waits ha (.inr (.inl (by rw [hb]; nofun)))
      | off => exact Trunk.settled_elsewhere (.inl ha)
      | keyup => exact Trunk.settled_elsewhere (.inr (.inl ha))
      | send => exact Trunk.settled_elsewhere (.inr (.inr ha))
    rw [hsame, if_neg hd]

end Settled

theorem State.settle_eq (s : State) :
    s.settle = { s with trunk := s.settle.trunk, attention := s.settle.attention } := rfl

theorem Entry.calls_iff (e : Entry) (level : Nat) : e.calls level = true ↔
    level < e.severity ∧ (e.state = .active ∧ e.ack = none ∨ e.state = .cleared) := by
  have hgroup : (e.group = some 1 ∨ e.group = some 2) ↔ e.state = .active ∧ e.ack = none ∨ e.state = .cleared := by
    unfold Entry.group
    cases e.state <;> cases e.ack <;> simp
  rw [Entry.calls, Bool.and_eq_true, Bool.or_eq_true, beq_iff_eq, beq_iff_eq, hgroup, decide_eq_true_eq, and_comm]

theorem Trunk.busy_iff (t : Trunk) : t.busy = true ↔ t.cd = true ∨ t.rx ≠ none := by
  simp [Trunk.busy, Option.isSome_iff_ne_none]

/-- Settles O29: the steps of the register, the seeds, and `Trunk.settled` by the access state. -/
theorem eventEndOpensAccess : Obligations.EventEndOpensAccess := by
  unfold Obligations.EventEndOpensAccess
  refine ⟨⟨fun r => ⟨lfsrStep_top r, fun i => lfsrStep_below r⟩, fun r => rfl, fun a b start ha ha' hb hb' hab heq => ?_⟩,
    fun s => ⟨s.settle_eq, ?_, fun x q ha he hcd hrx hq => ?_, fun ha h => ?_, fun ha h => ?_, fun ha hcd hrx => ?_,
      Trunk.settled_elsewhere⟩⟩
  · have hseeds := congrArg BitVec.toNat heq
    rw [lfsrSeed_toNat start ha ha', lfsrSeed_toNat start hb hb'] at hseeds
    exact hab (by omega)
  · rw [State.settle_attention, attentionCondition, List.any_eq_true]
    simp only [Entry.calls_iff]
  · rw [State.settle_trunk, hq]
    exact Trunk.settled_opens ha he (s.trunk.busy_eq_false_iff.2 ⟨hcd, hrx⟩)
  · refine Trunk.settled_waits ha (h.imp_right fun h => ?_)
    rcases h with h | h | h
    · exact .inl (by rw [(s.trunk.busy_iff).2 (.inl h)]; nofun)
    · exact .inl (by rw [(s.trunk.busy_iff).2 (.inr h)]; nofun)
    · exact .inr h
  · exact Trunk.settled_held ha (s.trunk.busy_iff.2 h)
  · exact Trunk.settled_runs ha (s.trunk.busy_eq_false_iff.2 ⟨hcd, hrx⟩)

/-! ## The carrier (O28) -/

theorem State.attentionOk_iff (s : State) : s.attentionOk = true ↔ s.attention = attentionCondition s.view s.level := by
  simp [State.attentionOk]

/-- Where the attention output follows its condition already, the end of an event is the controller's alone. -/
theorem State.settle_of_attentionOk (h : s.attentionOk = true) :
    s.settle = { s with trunk := s.trunk.settled s.queue s.clock } := by
  rw [State.settle, ← s.attentionOk_iff.1 h]

theorem State.slot_of_cd (h : s.slotOk = true) (hcd : s.trunk.cd = true) : s.trunk.slot = none := by
  simpa [State.slotOk, Trunk.busy, hcd] using h

/-- The state with a frame in progress truncated and counted (R149). -/
def State.truncated (s : State) : State := if s.trunk.rx.isSome then s.count .truncated else s

/-- CD_INACTIVE truncates a frame in progress, then settles on the clear channel. -/
theorem exec_cdInactive_settles (hcd : s.trunk.cd = true) : exec .cdInactive s =
    .next (State.settle { s.truncated with trunk := { s.trunk with cd := false, rx := none } }) := by
  cases hrx : s.trunk.rx with
  | some f =>
    have hcounted : s.truncated = s.count .truncated := by rw [State.truncated, hrx]; rfl
    have hexec : exec .cdInactive s =
        .next (State.abandonFrame { s with trunk := { s.trunk with cd := false } } .truncated).settle := by
      simp only [exec, execCdInactive]
      rw [if_pos hcd, if_pos (by rw [hrx]; rfl)]
    rw [hexec, hcounted]
    rfl
  | none =>
    have hcounted : s.truncated = s := by rw [State.truncated, hrx]; rfl
    have hexec : exec .cdInactive s = .next (State.settle { s with trunk := { s.trunk with cd := false } }) := by
      simp only [exec, execCdInactive]
      rw [if_pos hcd, if_neg (by rw [hrx]; nofun)]
    rw [hexec, hcounted, ← hrx]

/-- What the end of a truncation leaves to the controller. -/
theorem State.settle_truncated (ha : s.attentionOk = true) (t : Trunk) : State.settle { s.truncated with trunk := t } =
    { s.truncated with trunk := t.settled s.queue s.clock } := by
  unfold State.truncated
  split
  · exact State.settle_of_attentionOk (s := { s.count .truncated with trunk := t }) ha
  · exact State.settle_of_attentionOk (s := { s with trunk := t }) ha

/-- Settles O28: the carrier sets the pin, and the end of the event does the rest. -/
theorem carrierFreezesAndClears : Obligations.CarrierFreezesAndClears := by
  unfold Obligations.CarrierFreezesAndClears
  intro s hattention hslot down counted
  have hdown : s.trunk.cd = true → exec .cdInactive s =
      .next { counted with trunk := Trunk.settled down s.queue s.clock } := fun hcd => by
    rw [exec_cdInactive_settles hcd, State.settle_truncated hattention]
    rfl
  refine ⟨?_, fun hcd => ?_, fun hcd ha => ?_, fun x q hcd ha he hq => ?_, fun hcd ha hq => ?_, fun hcd ha => ?_⟩
  · have hexec : exec .cdActive s = .next (State.settle { s with trunk := { s.trunk with cd := true } }) := rfl
    rw [hexec, State.settle_of_attentionOk (s := { s with trunk := { s.trunk with cd := true } }) hattention]
    have hbusy : Trunk.busy { s.trunk with cd := true } = true := rfl
    rw [Trunk.settled_of_busy hbusy]
  · simp only [exec, execCdInactive]
    rw [if_neg (by rw [hcd]; nofun)]
  · rw [hdown hcd, Trunk.settled_runs (t := down) ha rfl, show down.slot = none from State.slot_of_cd hslot hcd]
    rfl
  · rw [hdown hcd, hq, Trunk.settled_opens (t := down) ha he rfl]
    rfl
  · rw [hdown hcd, Trunk.settled_waits (t := down) ha (.inr (.inr hq))]
  · rw [hdown hcd, Trunk.settled_elsewhere (t := down) ha]

end Sys2Proof.Machine

/-! The Console Port: a byte taken (O59), the bytes of a request's frame (O60), WRITE CONFIG and RESTART (O58). -/

namespace Sys2Proof.Machine

variable {s : State} {v : Byte}

/-! ## A byte taken (O59) -/

/-- The port assembling a request of which these bytes have been taken. -/
def State.assembling (s : State) (taken : List Byte) : State :=
  { s with cp := ⟨.assembling, taken, some s.clock, none⟩ }

section Byte

variable (hlive : s.live = true)
include hlive

theorem State.consoleByte_hunting (hport : s.cp.port = .hunting) (framing : Bool) : s.consoleByte v framing =
    if v = 0xA5 ∧ framing = false then s.assembling [] else s := by
  unfold State.consoleByte
  rw [if_pos hlive, hport]
  rfl

theorem State.consoleByte_replying (hport : s.cp.port = .replying) (framing : Bool) :
    s.consoleByte v framing = s.count .consoleDiscards := by
  unfold State.consoleByte
  rw [if_pos hlive, hport]

variable (hport : s.cp.port = .assembling)
include hport

theorem State.consoleByte_framing : s.consoleByte v true = { s with cp := ⟨.hunting, [], none, none⟩ } := by
  unfold State.consoleByte
  rw [if_pos hlive, hport]
  rfl

theorem State.consoleByte_length (hb : s.cp.buffer = []) : s.consoleByte v false =
    if 1 ≤ v.toNat ∧ v.toNat ≤ 60 then s.assembling [v] else s.replied 0x00 .badFormat [] := by
  unfold State.consoleByte
  rw [if_pos hlive, hport]
  simp only [Bool.false_eq_true, if_false, hb]
  rfl

theorem State.consoleByte_more {n : Byte} {b : List Byte} (hb : s.cp.buffer = n :: b) : s.consoleByte v false =
    if b.length = n.toNat then s.completeRequest (n :: b ++ [v]) else s.assembling (n :: b ++ [v]) := by
  have hlength : (n :: b ++ [v]).length = n.toNat + 2 ↔ b.length = n.toNat := by
    rw [List.length_append, List.length_cons, List.length_singleton]
    omega
  unfold State.consoleByte
  rw [if_pos hlive, hport]
  simp only [Bool.false_eq_true, if_false, hb, hlength]
  rfl

end Byte

/-- What a completed request meets (R173). -/
def State.judge (s : State) (code : Byte) (ps : List Byte) : State :=
  match Request.parse code ps with
  | .error st => s.replied code st []
  | .ok r => s.takeRequest r

theorem State.completeRequest_eq (n code : Byte) (ps : List Byte) : s.completeRequest (n :: code :: ps ++ [v]) =
    if byteSum (n :: code :: ps ++ [v]) ≠ 0 then s.replied code .badCheck [] else s.judge code ps := by
  simp only [List.cons_append, State.completeRequest, List.dropLast_concat]
  rfl

theorem State.judge_error {code : Byte} {ps : List Byte} {st : Status} (h : Request.parse code ps = .error st) :
    s.judge code ps = s.replied code st [] := by rw [State.judge, h]

/-! ### Codes and lengths -/

section Parse

variable {ps : List Byte}

theorem noParameter_badFormat (r : Request) (h : ps.length ≠ 0) : noParameter r ps = .error .badFormat := by
  cases ps with
  | nil => exact absurd rfl h
  | cons a ps => rfl

theorem oneParameter_badFormat (f : Byte → Request) (h : ps.length ≠ 1) : oneParameter f ps = .error .badFormat := by
  match ps, h with
  | [], _ => rfl
  | [a], h => exact absurd rfl h
  | _ :: _ :: _, _ => rfl

theorem keyParameter_badFormat (f : Byte → Byte → Request) (h : ps.length ≠ 2) : keyParameter f ps = .error .badFormat := by
  match ps, h with
  | [], _ => rfl
  | [_], _ => rfl
  | [_, _], h => exact absurd rfl h
  | _ :: _ :: _ :: _, _ => rfl

theorem acknowledgeParameters_badFormat (h : ps.length ≠ 7) : acknowledgeParameters ps = .error .badFormat := by
  unfold acknowledgeParameters
  split
  · exact absurd rfl h
  · rfl

theorem writeParameters_badFormat (h : ps.length < 3 ∨ 18 < ps.length) : writeParameters ps = .error .badFormat := by
  unfold writeParameters
  split
  · rename_i bs
    refine if_neg ?_
    simp only [List.length_cons] at h
    simp only [Request.inRange, decide_eq_true_eq]
    omega
  · rfl

theorem Request.parse_unknown {code : Byte} (h : 0x14 < code.toNat ∨ code = 0) (ps : List Byte) :
    Request.parse code ps = .error .unknownRequest := by
  have hne : ∀ k : Byte, 1 ≤ k.toNat → k.toNat ≤ 0x14 → code ≠ k := by
    rintro k h1 h20 rfl
    rcases h with h | rfl
    · omega
    · exact absurd h1 (by decide)
  unfold Request.parse
  repeat rw [if_neg (hne _ (by decide) (by decide))]

/-- The parameter counts of Table 11.3 but for WRITE CONFIG's. -/
def parameterCounts : List (Nat × Nat) :=
  [(0x01, 0), (0x02, 1), (0x03, 2), (0x04, 2), (0x05, 7), (0x06, 1), (0x07, 0), (0x08, 1), (0x09, 1), (0x0A, 1), (0x0B, 1),
    (0x0C, 1), (0x0D, 1), (0x0E, 0), (0x0F, 0), (0x10, 0), (0x11, 0), (0x12, 0), (0x14, 0)]

theorem Request.parse_badFormat {code : Byte} {size : Nat} (h : (code.toNat, size) ∈ parameterCounts)
    (hps : ps.length ≠ size) : Request.parse code ps = .error .badFormat := by
  have hcode : code = BitVec.ofNat 8 code.toNat := by simp
  generalize code.toNat = n at h hcode
  subst hcode
  simp only [parameterCounts, List.mem_cons, Prod.mk.injEq, List.not_mem_nil, or_false] at h
  rcases h with ⟨rfl, rfl⟩ | ⟨rfl, rfl⟩ | ⟨rfl, rfl⟩ | ⟨rfl, rfl⟩ | ⟨rfl, rfl⟩ | ⟨rfl, rfl⟩ | ⟨rfl, rfl⟩ | ⟨rfl, rfl⟩ |
    ⟨rfl, rfl⟩ | ⟨rfl, rfl⟩ | ⟨rfl, rfl⟩ | ⟨rfl, rfl⟩ | ⟨rfl, rfl⟩ | ⟨rfl, rfl⟩ | ⟨rfl, rfl⟩ | ⟨rfl, rfl⟩ | ⟨rfl, rfl⟩ |
    ⟨rfl, rfl⟩ | ⟨rfl, rfl⟩
  · exact noParameter_badFormat _ hps
  · exact oneParameter_badFormat _ hps
  · exact keyParameter_badFormat _ hps
  · exact keyParameter_badFormat _ hps
  · exact acknowledgeParameters_badFormat hps
  · exact oneParameter_badFormat _ hps
  · exact noParameter_badFormat _ hps
  · exact oneParameter_badFormat _ hps
  · exact oneParameter_badFormat _ hps
  · exact oneParameter_badFormat _ hps
  · exact oneParameter_badFormat _ hps
  · exact oneParameter_badFormat _ hps
  · exact oneParameter_badFormat _ hps
  · exact noParameter_badFormat _ hps
  · exact noParameter_badFormat _ hps
  · exact noParameter_badFormat _ hps
  · exact noParameter_badFormat _ hps
  · exact noParameter_badFormat _ hps
  · exact noParameter_badFormat _ hps

end Parse

/-- Settles O59: one equation of `State.consoleByte` for each state of the port, and the parse by code and length. -/
theorem consoleByteTaken : Obligations.ConsoleByteTaken := by
  unfold Obligations.ConsoleByteTaken
  intro s v framing byte assembling hunting
  have hbyte : exec byte s = .next (s.consoleByte v framing) := rfl
  rw [hbyte]
  refine ⟨fun hlive => ?_, fun hlive hport hv => ?_, fun hlive hport hv => ?_, fun hlive hport => ?_,
    fun hlive hport hf => ?_, fun hlive hport hf hb => ⟨fun hv => ?_, fun hv => ?_⟩, fun n b hlive hport hf hb =>
    ⟨fun hn => ?_, fun code ps hcode hn => ?_⟩, fun hport => ?_, fun hport => ?_⟩
  · rw [State.consoleByte, if_neg (by rw [hlive]; nofun)]
  · rw [State.consoleByte_hunting hlive hport, if_pos hv]
    rfl
  · rw [State.consoleByte_hunting hlive hport, if_neg hv]
  · rw [State.consoleByte_replying hlive hport]
  · rw [hf, State.consoleByte_framing hlive hport]
  · rw [hf, State.consoleByte_length hlive hport hb, if_pos hv]
    rfl
  · rw [hf, State.consoleByte_length hlive hport hb, if_neg (by omega)]
  · rw [hf, State.consoleByte_more hlive hport hb, if_neg hn]
    rfl
  · subst hcode
    rw [hf, State.consoleByte_more hlive hport hb, if_pos hn, State.completeRequest_eq]
    refine ⟨fun hsum => by rw [if_pos hsum], fun hsum hunknown => ?_, fun hsum => ⟨fun size hsize hps => ?_, fun h13 hps => ?_⟩⟩
    · rw [if_neg (not_not.2 hsum), State.judge_error (Request.parse_unknown hunknown ps)]
    · rw [if_neg (not_not.2 hsum), State.judge_error (Request.parse_badFormat hsize hps)]
    · subst h13
      rw [if_neg (not_not.2 hsum), State.judge_error (code := 0x13) (writeParameters_badFormat hps)]
  · simp only [exec, execGapTimeExpiry, if_pos hport]
    rfl
  · simp only [exec, execGapTimeExpiry, if_neg hport]

/-! ## The bytes of a frame -/

theorem Request.body_eq (r : Request) : ∃ check, r.body = byteOf (1 + r.params.length) :: r.code :: r.params ++ [check] ∧
    byteSum r.body = 0 := ⟨_, rfl, byteSum_checkOf _⟩

theorem State.live_assembling (taken : List Byte) : (s.assembling taken).live = s.live := rfl

/-- A fold along states that each element is foreseen to reach. -/
theorem foldl_foreseen {α β : Type} {f : β → α → β} {τ : List α → β} : ∀ {l taken : List α},
    (∀ a x b, l = a ++ x :: b → f (τ (taken ++ a)) x = τ (taken ++ a ++ [x])) → l.foldl f (τ taken) = τ (taken ++ l)
  | [], taken, _ => by simp
  | x :: l, taken, h => by
    have hfirst := h [] x l rfl
    rw [List.append_nil] at hfirst
    rw [List.foldl_cons, hfirst, foldl_foreseen (l := l) fun a y b hl => by
      have hnext := h (x :: a) y b (by rw [hl]; rfl)
      simpa using hnext]
    simp

/-- The port after the first bytes of a frame. -/
def State.afterBytes (s : State) (taken : List Byte) : State :=
  match taken with
  | [] => s
  | _ :: taken => s.assembling taken

/-- Each byte of a frame before its check is stored (R171, R172). -/
theorem State.consoleByte_frame (hready : s.ready = true) {n : Byte} {mid : List Byte} (h1 : 1 ≤ n.toNat) (h60 : n.toNat ≤ 60)
    (hmid : mid.length ≤ n.toNat) {a b : List Byte} {x : Byte} (h : 0xA5 :: n :: mid = a ++ x :: b) :
    (s.afterBytes a).consoleByte x false = s.afterBytes (a ++ [x]) := by
  obtain ⟨hlive, hport⟩ := s.ready_iff.1 hready
  match a with
  | [] =>
    obtain ⟨rfl, -⟩ := List.cons.inj h
    exact (State.consoleByte_hunting hlive hport false).trans (if_pos ⟨rfl, rfl⟩)
  | [y] =>
    obtain ⟨-, h⟩ := List.cons.inj h
    obtain ⟨rfl, -⟩ := List.cons.inj h
    exact (State.consoleByte_length (s := s.assembling []) hlive rfl rfl).trans (if_pos ⟨h1, h60⟩)
  | y :: m :: taken =>
    obtain ⟨-, htail⟩ := List.cons.inj h
    obtain ⟨rfl, hrest⟩ := List.cons.inj htail
    have hlength : taken.length ≠ n.toNat := by
      rw [show mid = taken ++ x :: b from hrest] at hmid
      simp only [List.length_append, List.length_cons] at hmid
      omega
    exact (State.consoleByte_more (s := s.assembling (n :: taken)) hlive rfl rfl).trans (if_neg hlength)

/-- A console state alone makes no difference to what a request meets. -/
theorem State.judge_assembling (taken : List Byte) (code : Byte) (ps : List Byte) :
    (s.assembling taken).judge code ps = s.judge code ps := by
  unfold State.judge
  cases Request.parse code ps <;> rfl

theorem byteOf_params_toNat {r : Request} (h : r.params.length ≤ 59) :
    (byteOf (1 + r.params.length)).toNat = 1 + r.params.length := by
  rw [byteOf_toNat]
  omega

/-- The check byte of a request with a good sum has it judged. -/
theorem State.assembling_completes (hlive : s.live = true) {n code check : Byte} {ps : List Byte}
    (hn : ps.length + 1 = n.toNat) (hsum : byteSum (n :: code :: ps ++ [check]) = 0) :
    (s.assembling (n :: code :: ps)).consoleByte check false = s.judge code ps := by
  rw [State.consoleByte_more (s := s.assembling (n :: code :: ps)) hlive rfl rfl,
    if_pos (show (code :: ps).length = n.toNat from hn), State.completeRequest_eq,
    if_neg (not_not.2 hsum), State.judge_assembling]

/-- The frame of a request at a port that hunts: the request is judged as it stands. -/
theorem State.frame_judged {r : Request} (hready : s.ready = true) (h : r.params.length ≤ 59) :
    r.frame.foldl (fun s b => s.consoleByte b false) s = s.judge r.code r.params := by
  obtain ⟨check, hbody, hsum⟩ := r.body_eq
  have hn := byteOf_params_toNat h
  have hfold : (0xA5 :: byteOf (1 + r.params.length) :: r.code :: r.params).foldl (fun s b => s.consoleByte b false) s =
      s.assembling (byteOf (1 + r.params.length) :: r.code :: r.params) :=
    foldl_foreseen (f := fun s b => s.consoleByte b false) (τ := s.afterBytes) (taken := []) fun a x b =>
      State.consoleByte_frame hready (by omega) (by omega) (by simp only [List.length_cons]; omega)
  rw [Request.frame, hbody, ← List.cons_append, List.foldl_append, hfold]
  exact (State.assembling_completes (s.ready_iff.1 hready).1 (by omega) (by rwa [hbody] at hsum))

/-- A request command outside its ranges: its bytes are turned away (R173, log 10). -/
theorem State.receive_badFormat {r : Request} (hready : s.ready = true) (h : r.params.length ≤ 59) (hr : ¬ r.inRange = true)
    (hparse : Request.parse r.code r.params = .error .badFormat) : s.receive r = s.replied r.code .badFormat [] := by
  rw [State.receive_otherwise fun h => hr h.2.2, State.frame_judged hready h, State.judge_error hparse]

/-! ## A request's command is its frame (O60) -/

theorem run_next {s t : State} (h : step s = .next t) (k : Nat) : Host.Core.run core (k + 1) s = Host.Core.run core k t := by
  refine (Host.Core.run.eq_def core (k + 1) s).trans ?_
  simp only
  rw [show core.step s = .next t from h]

/-- Commands that each answer as foreseen lead from state to state. -/
theorem run_commands {α : Type} {command : α → Instr} {σ : List α → List Instr → State}
    (hσ : ∀ taken q, (σ taken q).pending = q ∧ ∀ q', { σ taken q with pending := q' } = σ taken q') :
    ∀ {l taken : List α} {q : List Instr} (k : Nat),
      (∀ a x b, l = a ++ x :: b → ∀ q, exec (command x) (σ (taken ++ a) q) = .next (σ (taken ++ a ++ [x]) q)) →
      Host.Core.run core (l.length + k) (σ taken (l.map command ++ q)) = Host.Core.run core k (σ (taken ++ l) q)
  | [], taken, q, k, _ => by simp
  | x :: l, taken, q, k, h => by
    have hfirst := h [] x l rfl (l.map command ++ q)
    rw [List.append_nil] at hfirst
    have hstep : step (σ taken ((x :: l).map command ++ q)) = .next (σ (taken ++ [x]) (l.map command ++ q)) := by
      rw [step, (hσ taken _).1]
      simp only [List.map_cons, List.cons_append]
      rw [(hσ taken _).2, hfirst]
    have hrest := run_commands hσ (l := l) (taken := taken ++ [x]) (q := q) k fun a y b hl q => by
      have := h (x :: a) y b (by rw [hl]; rfl) q
      simpa using this
    rw [List.length_cons, Nat.add_right_comm, run_next hstep, hrest]
    simp

theorem exec_command (r : Request) (s : State) : exec r.command s = .next (s.receive r) := by cases r <;> rfl

theorem Request.params_length {r : Request} (h : r.inRange = true) : r.params.length ≤ 18 := by
  cases r with
  | writeConfig off bs =>
    simp only [Request.inRange, decide_eq_true_eq] at h
    simp only [Request.params, halfBytes, List.length_append, List.length_cons, List.length_nil]
    omega
  | acknowledge o p st ch op => exact show 7 ≤ 18 by decide
  | readNext o p => exact show 2 ≤ 18 by decide
  | readEntry o p => exact show 2 ≤ 18 by decide
  | _ => simp [Request.params]

theorem Request.frame_length (r : Request) : r.frame.length = r.params.length + 4 := by
  simp [Request.frame, Request.body]

theorem State.judge_params {r : Request} (h : r.inRange = true) : s.judge r.code r.params = s.takeRequest r := by
  rw [State.judge, r.parse_params h]

/-- The commands of a frame's bytes, run one by one at a port that hunts. -/
theorem run_frame {r : Request} (hready : s.ready = true) (hr : r.inRange = true) (rest : List Instr) :
    Host.Core.run core r.frame.length
        { s with pending := r.frame.map (fun b => .consoleByteReceived b false) ++ rest } =
      .next (State.takeRequest { s with pending := rest } r) := by
  obtain ⟨check, hbody, hsum⟩ := r.body_eq
  have h18 := Request.params_length hr
  have hn := byteOf_params_toNat (r := r) (by omega)
  have hbytes := run_commands (command := fun b => Instr.consoleByteReceived b false)
    (σ := fun taken q => State.afterBytes { s with pending := q } taken)
    (fun taken q => by cases taken <;> exact ⟨rfl, fun _ => rfl⟩)
    (l := 0xA5 :: byteOf (1 + r.params.length) :: r.code :: r.params) (taken := [])
    (q := .consoleByteReceived check false :: rest) 1 fun a x b h q => congrArg Host.Outcome.next
      (State.consoleByte_frame (s := { s with pending := q }) hready (by omega) (by omega)
        (by simp only [List.length_cons]; omega) h)
  have hcheck := State.assembling_completes (s := { s with pending := rest }) (s.ready_iff.1 hready).1 (code := r.code)
    (n := byteOf (1 + r.params.length)) (ps := r.params) (by omega) (by rwa [hbody] at hsum)
  rw [State.judge_params hr] at hcheck
  have hlast : step (State.afterBytes { s with pending := .consoleByteReceived check false :: rest }
      (0xA5 :: byteOf (1 + r.params.length) :: r.code :: r.params)) =
      .next (State.takeRequest { s with pending := rest } r) := congrArg Host.Outcome.next hcheck
  rw [Request.frame, hbody, ← List.cons_append, List.length_append, List.map_append, List.append_assoc]
  exact hbytes.trans (run_next hlast 0)

theorem QueueSide.counter_count (q : QueueSide) (i : CounterId) (n : Nat) : (q.count i n).counter i = (q.counter i).bumps n :=
  tget_tset_self _ _ _ (by cases i <;> decide)

theorem QueueSide.count_count (q : QueueSide) (i : CounterId) (n : Nat) : (q.count i).count i n = q.count i (n + 1) := by
  have hset : ∀ c : Counter, tset (tset q.counters i.index (q.counter i).bump) i.index c = tset q.counters i.index c := fun c =>
    Vector.setIfInBounds_setIfInBounds ..
  rw [QueueSide.count, QueueSide.counter_count]
  exact congrArg (fun t => { q with counters := t }) (hset _)

theorem State.count_count (s : State) (i : CounterId) (n : Nat) : (s.count i).count i n = s.count i (n + 1) :=
  congrArg (fun q : QueueSide => s.setCounty { s.toCounty with toQueueSide := q }) (s.toQueueSide.count_count i n)

/-- Bytes at a port that is REPLYING: each is counted as discarded (R172). -/
theorem State.discards {s : State} (hlive : s.live = true) (hport : s.cp.port = .replying) (bs : List Byte) :
    bs.foldl (fun s b => s.consoleByte b false) s = s.count .consoleDiscards bs.length := by
  induction bs generalizing s with
  | nil => exact (congrArg (fun q : QueueSide => s.setCounty { s.toCounty with toQueueSide := q })
      (QueueSide.count_zero s.toQueueSide .consoleDiscards)).symm
  | cons b bs ih =>
    rw [List.foldl_cons, State.consoleByte_replying hlive hport, ih (s := s.count .consoleDiscards) hlive hport,
      State.count_count, List.length_cons]

/-- Bytes outside RUN and LISTEN are not taken. -/
theorem State.bytes_untaken {s : State} (hlive : s.live = false) (bs : List Byte) :
    bs.foldl (fun s b => s.consoleByte b false) s = s := by
  induction bs with
  | nil => rfl
  | cons b bs ih => rw [List.foldl_cons, State.consoleByte, if_neg (by rw [hlive]; nofun), ih]

/-- Settles O60: the bytes of a frame lead the port to the request, and the command takes it at once. -/
theorem requestFrameIsItsCommand : Obligations.RequestFrameIsItsCommand := by
  unfold Obligations.RequestFrameIsItsCommand
  intro s rest r hr
  refine ⟨fun hready => ?_, fun hlive hport => ?_, fun hlive => ?_⟩
  · obtain ⟨hlive, hport⟩ := s.ready_iff.1 hready
    rw [run_frame hready hr, exec_command]
    exact congrArg Host.Outcome.next (State.receive_ready (s := { s with pending := rest }) ⟨hlive, hport, hr⟩).symm
  · rw [exec_command, State.receive_otherwise (fun h => by rw [hport] at h; exact nomatch h.2.1), ← r.frame_length]
    exact congrArg Host.Outcome.next (State.discards hlive hport r.frame)
  · rw [exec_command, State.receive_otherwise (fun h => by rw [hlive] at h; exact nomatch h.1)]
    exact congrArg Host.Outcome.next (State.bytes_untaken hlive r.frame)

/-! ## WRITE CONFIG and RESTART (O58) -/

theorem Request.writeConfig_params_length (offset : Half) (bytes : List Byte) :
    (Request.writeConfig offset bytes).params.length = bytes.length + 2 := by
  simp [Request.params, halfBytes]

theorem Request.parse_writeConfig_badFormat {offset : Half} {bytes : List Byte} (h : bytes.length = 0 ∨ 16 < bytes.length) :
    Request.parse 0x13 (Request.writeConfig offset bytes).params = .error .badFormat := by
  have hparams := writeParameters_badFormat (ps := (Request.writeConfig offset bytes).params)
    (by rw [Request.writeConfig_params_length]; omega)
  exact hparams

/-- A WRITE CONFIG of 1 to 16 bytes at a port that is ready. -/
theorem exec_writeConfig (hready : s.ready = true) {offset : Half} {bytes : List Byte} (h1 : 1 ≤ bytes.length)
    (h16 : bytes.length ≤ 16) : exec (.writeConfig offset bytes) s = .next (s.takeRequest (.writeConfig offset bytes)) :=
  congrArg Host.Outcome.next (State.receive_ready ⟨(s.ready_iff.1 hready).1, (s.ready_iff.1 hready).2,
    by simp [Request.inRange, h1, h16]⟩)

theorem outsidePage_eq_false {offset n : Nat} (h504 : offset + n ≤ 504) (hpage : offset / 16 = (offset + n - 1) / 16) :
    ¬ outsidePage offset n = true := by
  rw [outsidePage, Bool.or_eq_true, decide_eq_true_eq, decide_eq_true_eq]
  exact fun h => h.elim (Nat.not_lt.2 h504) (fun h => h hpage)

/-- Settles O58: a WRITE CONFIG of another length meets the parse, another place the page test; the rest is the loader's. -/
theorem writeConfigAndRestart : Obligations.WriteConfigAndRestart := by
  unfold Obligations.WriteConfigAndRestart
  intro s offset bytes n waiting
  refine ⟨fun hready hlen => ?_, fun hready h1 h16 hpage => ?_, fun hready h1 h16 h504 hpage => ⟨fun hop => ?_, fun hop => ?_⟩,
    fun hready => ?_, fun hport hreply hrestart => ?_, fun hport hreply hrestart => ?_, fun h => ?_⟩
  · have hparse := Request.parse_writeConfig_badFormat (offset := offset) (bytes := bytes) (by omega)
    refine congrArg Host.Outcome.next (State.receive_badFormat hready ?_ ?_ hparse)
    · rw [Request.writeConfig_params_length]
      omega
    · simp only [Request.inRange, decide_eq_true_eq]
      omega
  · have houtside : outsidePage offset.toNat bytes.length = true := by
      rw [outsidePage, Bool.or_eq_true, decide_eq_true_eq, decide_eq_true_eq]
      exact hpage
    refine congrArg Host.Outcome.next (State.receive_replied hready (by simp [Request.inRange, h1, h16]) ?_)
    exact if_pos houtside
  · rw [exec_writeConfig hready h1 h16, State.takeRequest_waiting (t := { waiting with
      loader := { s.loader with op := some (.configWrite ⟨offset.toNat, bytes⟩) } })]
    refine (if_neg (outsidePage_eq_false h504 hpage)).trans ?_
    simp only [hop]
    rfl
  · rw [exec_writeConfig hready h1 h16, State.takeRequest_waiting (t := { waiting with
      loader := { s.loader with waitingConfig := some ⟨offset.toNat, bytes⟩ } })]
    refine (if_neg (outsidePage_eq_false h504 hpage)).trans ?_
    obtain ⟨op, hsome⟩ := Option.ne_none_iff_exists'.1 hop
    simp only [hsome]
    rfl
  · exact congrArg Host.Outcome.next (State.receive_answered (u := { s.taking with restart := .answered }) hready rfl rfl rfl)
  · simp only [exec, execReplyEnd]
    rw [if_pos ⟨hport, Option.isSome_iff_ne_none.2 hreply⟩, if_neg hrestart]
  · simp only [exec, execReplyEnd]
    rw [if_pos ⟨hport, Option.isSome_iff_ne_none.2 hreply⟩, if_pos hrestart]
  · simp only [exec, execReplyEnd]
    rw [if_neg]
    rintro ⟨hport, hreply⟩
    exact h.elim (fun h => h hport) (Option.isSome_iff_ne_none.1 hreply)

end Sys2Proof.Machine

/-! The Attention Unit: local acknowledgement (O54), TAKE, FINISH and SET LEVEL (O55). -/

namespace Sys2Proof.Machine

variable {s t : State} {e : Entry} {op : Byte}

/-! ## Local acknowledgement -/

/-- An acknowledgement by this station, in one record (R99, R108). -/
theorem Entry.acknowledged_eq (e : Entry) (a : Ack) (retireAt : Time) : e.acknowledged a retireAt = { e with
    ack := some a, state := if e.state = .cleared then .retired else e.state
    retireTime := if e.state = .cleared then some retireAt else e.retireTime } := by
  obtain ⟨o, p, k, sv, state, st, occ, ab, bt, lh, ack, af, own, lo, stale, ebr, rt, ls⟩ := e
  cases state <;> rfl

theorem Entry.acknowledged_if (e : Entry) (a : Ack) (retireAt : Time) : e.acknowledged a retireAt =
    if e.state = .cleared then { e with ack := some a, state := .retired, retireTime := some retireAt }
    else { e with ack := some a } := by
  rw [Entry.acknowledged_eq]
  split <;> rfl

/-- What a local acknowledgement of the held entry `e` makes of the state: the ack part applied, the ACK item offered unless
the entry is LOCAL_ONLY. -/
structure State.Acked (s : State) (e : Entry) (op : Byte) (t : State) : Prop where
  keeps : t = { s with toQueueSide := t.toQueueSide, view := t.view }
  found : findEntry t.view e.origin e.point = some (e.acknowledged ⟨s.number, op⟩ (s.cfg.retireAt s.now))
  others : ∀ a b, ¬ (a = e.origin ∧ b = e.point) → findEntry t.view a b = findEntry s.view a b
  unsent : e.localOnly = true → t.toQueueSide = s.toQueueSide
  offered : ∀ st, e.localOnly = false → e.stamp = some st →
    t.toQueueSide = offerItem s.ctx s.roll t.view (ackItem s.ctx e st op) s.toQueueSide

theorem County.offerAck_eq (c : Ctx) (k : County) :
    k.offerAck c e op = { k with toQueueSide := (k.offerAck c e op).toQueueSide } := by
  unfold County.offerAck
  split
  · rfl
  · split <;> rfl

theorem State.localAck_acked (he : findEntry s.view e.origin e.point = some e) : s.Acked e op (s.localAck e op) := by
  have hview : (s.localAck e op).view = updateEntry s.view e.origin e.point fun e =>
      e.acknowledged ⟨s.number, op⟩ (s.cfg.retireAt s.now) := by
    rw [State.localAck_toCounty, County.offerAck_eq]
    rfl
  have hfind := findEntry_updateEntry s.view e.origin e.point (fun e => e.acknowledged ⟨s.number, op⟩ (s.cfg.retireAt s.now))
    fun x => by rw [Entry.acknowledged_eq]; exact ⟨rfl, rfl⟩
  refine ⟨?_, ?_, fun a b hne => ?_, fun hlocal => ?_, fun st hlocal hst => ?_⟩
  · have hcounty := County.offerAck_eq (e := e) (op := op) s.ctx (s.toCounty.ackEntry s.ctx e op)
    rw [hview]
    exact congrArg s.setCounty hcounty
  · rw [hview, hfind, if_pos ⟨rfl, rfl⟩, he]
    rfl
  · rw [hview, hfind, if_neg hne]
  · rw [State.localAck_toCounty, County.offerAck]
    cases e.stamp with
    | none => rfl
    | some st =>
      simp only [hlocal, if_true]
      rfl
  · rw [State.localAck_toCounty, County.offerAck, hst, hlocal]
    rfl

theorem State.Acked.untaken (h : s.taking.Acked e op t) : s.Acked e op { t with cp := s.cp } := by
  obtain ⟨hk, hf, ho, hu, hq⟩ := h
  exact ⟨congrArg (fun u : State => { u with cp := s.cp }) hk, hf, ho, hu, hq⟩

theorem State.Acked.cp (h : s.Acked e op t) : t.cp = s.cp := by rw [h.keeps]

theorem State.Acked.now (h : s.Acked e op t) : t.now = s.now := by
  unfold State.now
  rw [h.keeps]

theorem State.taking_not_listen (hm : s.mode = .run) : ¬ s.taking.mode = .listen := fun h => by
  rw [show s.taking.mode = s.mode from rfl, hm] at h
  cases h

/-- A request answered by its block, as a command at a port that is ready. -/
theorem exec_command_answered {r : Request} {u : State} {st : Status} {data : List Byte} (hready : s.ready = true)
    (hr : r.inRange = true) (h : State.serve s.taking r = (u, some (st, data))) (hu : u.cp = s.taking.cp) :
    exec r.command s = .next (u.replied r.code st data) :=
  (exec_command r s).trans (congrArg Host.Outcome.next (State.receive_answered hready hr h hu))

section Acknowledge

variable {o p : Nat} {st : Stamp}

theorem State.serveAcknowledge_none (hm : ¬ s.mode = .listen) (he : findEntry s.view o p = none) :
    s.serveAcknowledge o p st op = s.answer .noEntry [] := by
  rw [State.serveAcknowledge, if_neg hm, he]

theorem State.serveAcknowledge_held (hm : ¬ s.mode = .listen) (he : findEntry s.view o p = some e) :
    s.serveAcknowledge o p st op =
      if e.localOnly = false ∧ e.stamp ≠ some st then s.answer .staleStamp (s.wire e)
      else if e.ack.isSome then s.answer .ok (s.wire e)
      else (s.localAck e op).settle.answer .ok ((s.localAck e op).settle.wireOf o p) := by
  rw [State.serveAcknowledge, if_neg hm, he]

end Acknowledge

/-- The entry for a key on the wire, where the view holds it. -/
theorem State.wireOf_found {o p : Nat} (h : findEntry s.view o p = some e) : s.wireOf o p = entryBytes s.now s.unsent e := by
  rw [State.wireOf, h]
  rfl

/-- Settles O54: ACKNOWLEDGE answers at the first condition of R108 that holds; its effect is the local acknowledgement. -/
theorem acknowledgeAnswersInOrder : Obligations.AcknowledgeAnswersInOrder := by
  unfold Obligations.AcknowledgeAnswersInOrder
  intro s o p start change op hready goes
  have hserved : ∀ {u : State} {st : Status} {data : List Byte},
      s.taking.serveAcknowledge o.toNat p.toNat ⟨start, change⟩ op = (u, some (st, data)) → u.cp = s.taking.cp →
      goes (u.replied 0x05 st data) := fun h hu =>
    exec_command_answered (r := .acknowledge o p start change op) hready rfl h hu
  have hcurrent : ∀ {e : Entry}, e.localOnly = true ∨ e.stamp = some ⟨start, change⟩ →
      ¬ (e.localOnly = false ∧ e.stamp ≠ some ⟨start, change⟩) := fun h ⟨hl, hs⟩ => h.elim (by rw [hl]; nofun) hs
  refine ⟨fun hm => hserved (u := s.taking) (if_pos hm) rfl, fun hm he => hserved (u := s.taking) ?_ rfl,
    fun e hm he => ⟨fun hlocal hst => hserved (u := s.taking) ?_ rfl, fun hst hack => hserved (u := s.taking) ?_ rfl,
      fun hst hack => ?_⟩⟩
  · exact State.serveAcknowledge_none (s.taking_not_listen hm) he
  · rw [State.serveAcknowledge_held (s.taking_not_listen hm) he, if_pos ⟨hlocal, hst⟩]
    rfl
  · rw [State.serveAcknowledge_held (s.taking_not_listen hm) he, if_neg (hcurrent hst),
      if_pos (Option.isSome_iff_ne_none.2 hack)]
    rfl
  · obtain ⟨-, ho, hp⟩ := findEntry_mem he
    have hacked := State.localAck_acked (s := s.taking) (op := op) (e := e) (by rw [ho, hp]; exact he)
    have hwire := State.wireOf_found (s := (s.taking.localAck e op).settle) hacked.found
    have hserve := State.serveAcknowledge_held (st := ⟨start, change⟩) (op := op) (s.taking_not_listen hm) he
    rw [if_neg (hcurrent hst), if_neg (by rw [hack]; nofun), ← ho, ← hp, hwire] at hserve
    have hexec := hserved (u := (s.taking.localAck e op).settle) (by rw [← ho, ← hp]; exact hserve)
      ((State.settle_cp _).trans hacked.cp)
    obtain ⟨hkeeps, hfound, hothers, hunsent, hoffered⟩ := hacked.untaken
    rw [Entry.acknowledged_if] at hexec hfound
    have hnow : (s.taking.localAck e op).settle.now = s.now := hacked.now
    rw [hnow] at hexec
    refine ⟨{ s.taking.localAck e op with cp := s.cp }, hexec, hkeeps, hfound, hothers, hunsent, fun hlocal => ?_⟩
    exact hoffered _ hlocal (hst.resolve_left (by rw [hlocal]; nofun))

/-! ## TAKE, FINISH, SET LEVEL -/

/-- In a view in key order an entry is the one for its key. -/
theorem findEntry_of_mem {v : List Entry} {e : Entry} (hv : viewOrdered v = true) (he : e ∈ v) :
    findEntry v e.origin e.point = some e := by
  induction v with
  | nil => cases he
  | cons x v ih =>
    unfold findEntry
    rcases List.mem_cons.1 he with rfl | he
    · rw [List.find?_cons, (e.hasKey_iff _ _).2 ⟨rfl, rfl⟩]
    · have hlt := viewOrdered_head hv e he
      have hkey : ¬ x.hasKey e.origin e.point = true := fun hkey => by
        obtain ⟨ho, hp⟩ := (x.hasKey_iff _ _).1 hkey
        simp only [keyLt, ho, hp, decide_eq_true_eq] at hlt
        omega
      rw [List.find?_cons, Bool.eq_false_iff.2 hkey]
      exact ih (viewOrdered_tail hv) he

theorem State.candidate_eq (s : State) : s.candidate = (dispatchOrder s.now s.view).find? fun e =>
    decide (s.level < e.severity ∧ (e.state = .active ∧ e.ack = none ∨ e.state = .cleared)) := by
  rw [State.candidate]
  refine congrFun (congrArg List.find? (funext fun e => ?_)) _
  rw [Bool.eq_iff_iff, decide_eq_true_eq, Entry.calls_iff]

section Take

variable (hm : ¬ s.mode = .listen)
include hm

theorem State.serveTake_none (hc : s.candidate = none) : s.serveTake op = s.answer .nonePending s.levelBytes := by
  rw [State.serveTake, if_neg hm, hc]

theorem State.serveTake_full (hc : s.candidate = some e) (hfull : 4 ≤ s.stack.length) :
    s.serveTake op = s.answer .stackFull s.levelBytes := by
  rw [State.serveTake, if_neg hm, hc]
  exact if_pos hfull

/-- The state after TAKE of a candidate. -/
def State.taken (s : State) (e : Entry) (op : Byte) : State :=
  State.settle { s.localAck e op with stack := s.level :: s.stack, level := e.severity }

theorem State.serveTake_room (hc : s.candidate = some e) (hroom : s.stack.length < 4) : s.serveTake op =
    (s.taken e op).answer .ok ((s.taken e op).levelBytes ++ (s.taken e op).wireOf e.origin e.point) := by
  rw [State.serveTake, if_neg hm, hc]
  exact if_neg (Nat.not_le.2 hroom)

end Take

theorem State.serveSetLevel_empty (hs : s.stack = []) (n : Byte) : s.serveSetLevel n =
    (State.settle { s with level := min 7 n.toNat }).answer .ok (State.levelBytes { s with level := min 7 n.toNat }) := by
  unfold State.serveSetLevel
  split
  · rename_i hcons
    rw [hs] at hcons
    cases hcons
  · rfl

/-- Settles O55: TAKE answers at the first condition of R165 that holds; its effect is the local acknowledgement of the
candidate and the move of the level. -/
theorem takeFinishSetLevel : Obligations.TakeFinishSetLevel := by
  unfold Obligations.TakeFinishSetLevel
  intro s op n hready candidate depth levels
  have htake : ∀ {u : State} {st : Status} {data : List Byte}, s.taking.serveTake op = (u, some (st, data)) →
      u.cp = s.taking.cp → exec (.take op) s = .next (u.replied 0x06 st data) := fun h hu =>
    exec_command_answered (r := .take op) hready rfl h hu
  have hcandidate : s.taking.candidate = candidate := s.taking.candidate_eq
  refine ⟨fun hm => htake (u := s.taking) (if_pos hm) rfl, fun hm hc => htake (u := s.taking) ?_ rfl,
    fun e hm hc hfull => htake (u := s.taking) ?_ rfl, fun e hm hc hroom hordered => ?_, fun hs => ?_, fun l rest hs => ?_,
    fun hs => ?_, fun hs => ?_⟩
  · exact State.serveTake_none (s.taking_not_listen hm) (hcandidate.trans hc)
  · exact State.serveTake_full (s.taking_not_listen hm) (hcandidate.trans hc) hfull
  · have hmem : e ∈ s.view := (mem_dispatchOrder.1 (List.mem_of_find?_eq_some hc)).1
    have hacked := State.localAck_acked (s := s.taking) (op := op) (findEntry_of_mem hordered hmem)
    have hwire := State.wireOf_found (s := s.taking.taken e op) hacked.found
    have hserve := State.serveTake_room (op := op) (s.taking_not_listen hm) (hcandidate.trans hc) hroom
    rw [hwire] at hserve
    have hexec := htake hserve hacked.cp
    obtain ⟨hkeeps, hfound, hothers, hunsent, hoffered⟩ := hacked.untaken
    rw [Entry.acknowledged_eq] at hexec hfound
    have hnow : (s.taking.taken e op).now = s.now := hacked.now
    rw [hnow] at hexec
    refine ⟨{ s.taking.localAck e op with cp := s.cp }, hexec, hkeeps, hfound, hothers, hunsent, fun st hlocal hst => ?_⟩
    exact hoffered _ hlocal hst
  · have hserve : State.serve s.taking .finish = (s.taking, some (.stackEmpty, [])) := by
      show s.taking.serveFinish = _
      rw [State.serveFinish, show s.taking.stack = [] from hs]
      rfl
    exact exec_command_answered (u := s.taking) (r := .finish) hready rfl hserve rfl
  · have hserve : State.serve s.taking .finish = (State.settle { s.taking with stack := rest, level := l },
        some (.ok, [BitVec.ofNat 8 l, depth rest])) := by
      show s.taking.serveFinish = _
      rw [State.serveFinish, show s.taking.stack = l :: rest from hs]
      rfl
    have hexec := exec_command_answered (r := .finish) hready rfl hserve rfl
    exact hexec
  · have hserve : State.serve s.taking (.setLevel n) = (s.taking, some (.busy, levels)) := by
      show s.taking.serveSetLevel n = _
      obtain ⟨l, rest, hcons⟩ := List.exists_cons_of_ne_nil hs
      rw [State.serveSetLevel, show s.taking.stack = l :: rest from hcons]
      rfl
    exact exec_command_answered (u := s.taking) (r := .setLevel n) hready rfl hserve rfl
  · have hlevels : State.levelBytes { s.taking with level := min 7 n.toNat } = [BitVec.ofNat 8 (min 7 n.toNat), 0] := by
      rw [State.levelBytes, show State.stack { s.taking with level := min 7 n.toNat } = [] from hs]
      rfl
    have hserve : State.serve s.taking (.setLevel n) = (State.settle { s.taking with level := min 7 n.toNat },
        some (.ok, [BitVec.ofNat 8 (min 7 n.toNat), 0])) := by
      rw [← hlevels]
      exact State.serveSetLevel_empty (s := s.taking) hs n
    have hexec := exec_command_answered (r := .setLevel n) hready rfl hserve rfl
    exact hexec

end Sys2Proof.Machine

/-! The bytes of the wire forms, STATUS and READ COUNTERS (O56). -/

namespace Sys2Proof.Machine

variable {s : State}

/-! ## Bytes -/

/-- A 16-bit quantity as its two bytes, low byte first. -/
def lowBytes (n : Nat) : List Byte := [BitVec.ofNat 8 (n % 256), BitVec.ofNat 8 (n / 256 % 256)]

theorem halfBytes_eq (h : Half) : halfBytes h = lowBytes h.toNat := by
  have hlt := h.isLt
  simp only [halfBytes, lowBytes, List.cons.injEq, and_true]
  refine ⟨BitVec.eq_of_toNat_eq ?_, BitVec.eq_of_toNat_eq ?_⟩
  · simp
  · simp [Nat.shiftRight_eq_div_pow]

theorem natHalfBytes_eq (n : Nat) : natHalfBytes n = lowBytes n := by
  rw [natHalfBytes, halfBytes_eq, BitVec.toNat_ofNat, lowBytes, lowBytes]
  rw [show n % 2 ^ 16 % 256 = n % 256 by omega, show n % 2 ^ 16 / 256 % 256 = n / 256 % 256 by omega]

theorem timeBytes_eq (t : Time) : timeBytes t = lowBytes (t.toNat % 65536) ++ lowBytes (t.toNat / 65536) := by
  have hlt := t.isLt
  simp only [timeBytes, lowBytes, List.cons_append, List.nil_append, List.cons.injEq, and_true]
  refine ⟨BitVec.eq_of_toNat_eq ?_, BitVec.eq_of_toNat_eq ?_, BitVec.eq_of_toNat_eq ?_, BitVec.eq_of_toNat_eq ?_⟩
  · simp only [BitVec.toNat_setWidth, BitVec.toNat_ofNat]
    omega
  · simp only [BitVec.toNat_setWidth, BitVec.toNat_ushiftRight, BitVec.toNat_ofNat, Nat.shiftRight_eq_div_pow]
    omega
  · simp only [BitVec.toNat_setWidth, BitVec.toNat_ushiftRight, BitVec.toNat_ofNat, Nat.shiftRight_eq_div_pow]
    omega
  · simp only [BitVec.toNat_setWidth, BitVec.toNat_ushiftRight, BitVec.toNat_ofNat, Nat.shiftRight_eq_div_pow]
    omega

/-- A flag as a number. -/
def bitOf (b : Bool) (n : Nat) : Nat := if b then n else 0

theorem flagByte_eq (b : Bool) : flagByte b = BitVec.ofNat 8 (bitOf b 1) := by cases b <;> rfl

/-- Distinct bits set one by one make the sum of their weights. -/
theorem orBits_toNat (P : Nat → Bool) : ∀ k, k ≤ 16 →
    ((List.range k).foldl (fun h i => if P i then h ||| (1#16 <<< i) else h) 0).toNat =
      ((List.range k).map fun i => bitOf (P i) (2 ^ i)).sum ∧
    ((List.range k).map fun i => bitOf (P i) (2 ^ i)).sum < 2 ^ k
  | 0, _ => ⟨rfl, Nat.one_pos⟩
  | k + 1, hk => by
    obtain ⟨heq, hlt⟩ := orBits_toNat P k (by omega)
    have hpow : 2 ^ k < 2 ^ 16 := Nat.pow_lt_pow_right (by decide) (by omega)
    rw [List.range_succ, List.foldl_append, List.map_append, List.sum_append, List.foldl_cons, List.foldl_nil]
    simp only [List.map_cons, List.map_nil, List.sum_cons, List.sum_nil, Nat.add_zero]
    generalize (List.range k).foldl (fun h i => if P i then h ||| (1#16 <<< i) else h) 0 = h at heq
    generalize ((List.range k).map fun i => bitOf (P i) (2 ^ i)).sum = n at heq hlt
    by_cases hP : P k = true
    · rw [if_pos hP, bitOf, if_pos hP]
      have hone : (1#16 <<< k).toNat = 2 ^ k := by
        rw [BitVec.toNat_shiftLeft, show (1#16).toNat = 1 from rfl, Nat.one_shiftLeft, Nat.mod_eq_of_lt hpow]
      have hor := Nat.two_pow_add_eq_or_of_lt hlt 1
      rw [BitVec.toNat_or, hone, heq, Nat.or_comm, ← Nat.mul_one (2 ^ k), ← hor]
      omega
    · rw [if_neg hP, bitOf, if_neg hP]
      exact ⟨heq, by omega⟩

theorem halfBytes_orBits (P : Nat → Bool) :
    halfBytes ((List.range 16).foldl (fun h i => if P i then h ||| (1#16 <<< i) else h) 0) =
      lowBytes ((List.range 16).map fun i => bitOf (P i) (2 ^ i)).sum := by
  rw [halfBytes_eq, (orBits_toNat P 16 (Nat.le_refl _)).1]

/-! ## STATUS and READ COUNTERS -/

theorem State.latchedFlags_eq (s : State) : s.latchedFlags = BitVec.ofNat 8
    (bitOf s.viewOverflow 1 + bitOf s.duplicateStation 2 + bitOf s.stampConflict 4 + bitOf s.startWriteFail 8) := by
  unfold State.latchedFlags
  cases s.viewOverflow <;> cases s.duplicateStation <;> cases s.stampConflict <;> cases s.startWriteFail <;> rfl

theorem Vector.toList_eq_tget {α : Type} {n : Nat} (t : Vector α n) (d : α) :
    t.toList = (List.range n).map fun i => tget t i d := by
  refine List.ext_getElem (by simp) fun i h1 h2 => ?_
  have hi : i < n := by simpa using h1
  simp [tget, hi]

theorem counterBytes_eq (cs : Vector Counter 16) : counterBytes cs =
    ((List.range 16).flatMap fun i => lowBytes (tget cs i ⟨0, false⟩).value.toNat) ++
      lowBytes ((List.range 16).map fun i => bitOf (tget cs i ⟨0, false⟩).rolled (2 ^ i)).sum := by
  rw [counterBytes, rolloverFlags, halfBytes_orBits, Vector.toList_eq_tget cs ⟨0, false⟩, List.flatMap_map]
  simp only [halfBytes_eq]

theorem StationMode.code_of_live (h : s.live = true) : s.mode.code = BitVec.ofNat 8 (if s.mode = .run then 1 else 2) := by
  have hmode : s.mode = .run ∨ s.mode = .listen := by simpa [State.live] using h
  rcases hmode with hmode | hmode <;> rw [hmode] <;> rfl

/-- Settles O56: the bytes of Table 11.5, and the counters from before the clear. -/
theorem statusAndCountersReport : Obligations.StatusAndCountersReport := by
  unfold Obligations.StatusAndCountersReport
  intro s clear hready byte low bit
  have hlow : low = lowBytes := rfl
  refine ⟨?_, ⟨fun hclear => ?_, fun hclear => ?_⟩, fun q i => q.counter_count i 1⟩
  · have hexec := exec_command_answered (r := .status) (u := s.taking) hready rfl rfl rfl
    refine hexec.trans (congrArg (fun d => Host.Outcome.next (s.replied 0x01 .ok d)) ?_)
    have hreason : listenReasonCode s.listenReason = byte (match s.listenReason with
        | none => 0
        | some .noMemory => 1
        | some .badSignature => 2
        | some .badImageCrc => 3
        | some .badStation => 4) := by
      cases s.listenReason with
      | none => rfl
      | some r => cases r <;> rfl
    have henable : s.trunk.enable.code = byte (match s.trunk.enable with
        | .disabled => 0
        | .enabled => 1
        | .draining => 2) := by cases s.trunk.enable <;> rfl
    have haccess : s.trunk.access.code = byte (match s.trunk.access with
        | .off => 0
        | .idle => 1
        | .defer => 2
        | .keyup => 3
        | .send => 4) := by cases s.trunk.access <;> rfl
    have hmode := StationMode.code_of_live (s.ready_iff.1 hready).1
    show s.statusBytes = _
    simp only [State.statusBytes, Trunk.stateBytes, State.levelBytes, natHalfBytes_eq, timeBytes_eq, halfBytes_eq, flagByte_eq,
      State.latchedFlags_eq, hmode, henable, haccess, hreason]
    rfl
  · have hserve : State.serve s.taking (.readCounters clear) = (s.taking, some (.ok, counterBytes s.counters)) :=
      if_pos hclear
    rw [counterBytes_eq] at hserve
    exact exec_command_answered (r := .readCounters clear) (u := s.taking) hready rfl hserve rfl
  · have hserve : State.serve s.taking (.readCounters clear) =
        ({ s.taking with counters := countersZero, viewOverflow := false }, some (.ok, counterBytes s.counters)) :=
      if_neg hclear
    rw [counterBytes_eq] at hserve
    have hexec := exec_command_answered (r := .readCounters clear) hready rfl hserve rfl
    exact hexec

end Sys2Proof.Machine

/-! The requests that read the station (O57): the wire form of an entry, the view, a point with its live values, a roll
record. -/

namespace Sys2Proof.Machine

variable {s : State}

/-! ## Presence bytes and single codes -/

theorem flags3_eq (a b c : Bool) : ((if a then 1#8 else 0) ||| (if b then 2#8 else 0) ||| (if c then 4#8 else 0)) =
    BitVec.ofNat 8 (bitOf a 1 + bitOf b 2 + bitOf c 4) := by
  cases a <;> cases b <;> cases c <;> rfl

theorem flags5_eq (a b c d e : Bool) : ((if a then 1#8 else 0) ||| (if b then 2#8 else 0) ||| (if c then 4#8 else 0) |||
    (if d then 8#8 else 0) ||| (if e then 16#8 else 0)) =
    BitVec.ofNat 8 (bitOf a 1 + bitOf b 2 + bitOf c 4 + bitOf d 8 + bitOf e 16) := by
  cases a <;> cases b <;> cases c <;> cases d <;> cases e <;> rfl

theorem flags7_eq (a b c d e f g : Bool) : ((if a then 1#8 else 0) ||| (if b then 2#8 else 0) ||| (if c then 4#8 else 0) |||
    (if d then 8#8 else 0) ||| (if e then 16#8 else 0) ||| (if f then 32#8 else 0) ||| (if g then 64#8 else 0)) =
    BitVec.ofNat 8 (bitOf a 1 + bitOf b 2 + bitOf c 4 + bitOf d 8 + bitOf e 16 + bitOf f 32 + bitOf g 64) := by
  cases a <;> cases b <;> cases c <;> cases d <;> cases e <;> cases f <;> cases g <;> rfl

/-! ## Entries on the wire (R176) -/

theorem entryBytes_eq (now : Time) (unsent : Vector Bool 32) (e : Entry) : entryBytes now unsent e =
    [byteOf e.origin, byteOf e.point] ++
    (match e.stamp with
      | some st => lowBytes st.start.toNat ++ lowBytes st.change.toNat
      | none => [0, 0, 0, 0]) ++
    [byteOf e.kind.code, byteOf e.severity,
      byteOf (match e.state with
        | .active => 1
        | .cleared => 2
        | .inhibited => 3
        | .retired => 4),
      byteOf (bitOf e.own 1 + bitOf e.localOnly 2 + bitOf e.stale 4 + bitOf e.endedByRestart 8 +
        bitOf (e.own && tget unsent e.point false) 16),
      byteOf (bitOf e.stamp.isSome 1 + bitOf e.ack.isSome 2 + bitOf e.affected.isSome 4 + bitOf e.retireTime.isSome 8 +
        bitOf e.lastSent.isSome 16), byteOf e.occurrences] ++
    lowBytes (min 65535 (e.ageBase + (now - e.baseTime).toNat)) ++
    (match e.ack with
      | some a => [byteOf a.station, a.operator]
      | none => [0, 0]) ++ [byteOf (e.affected.getD 0)] ++
    (lowBytes (e.lastHeard.toNat % 65536) ++ lowBytes (e.lastHeard.toNat / 65536)) ++
    (lowBytes ((e.retireTime.getD 0).toNat % 65536) ++ lowBytes ((e.retireTime.getD 0).toNat / 65536)) ++
    (lowBytes ((e.lastSent.getD 0).toNat % 65536) ++ lowBytes ((e.lastSent.getD 0).toNat / 65536)) := by
  have hstamp : halfBytes (e.stamp.getD ⟨0, 0⟩).start ++ halfBytes (e.stamp.getD ⟨0, 0⟩).change = match e.stamp with
      | some st => lowBytes st.start.toNat ++ lowBytes st.change.toNat
      | none => [0, 0, 0, 0] := by
    cases e.stamp with
    | none => rfl
    | some st => rw [Option.getD_some, halfBytes_eq, halfBytes_eq]
  have hack : [byteOf (e.ack.getD ⟨0, 0⟩).station, (e.ack.getD ⟨0, 0⟩).operator] = match e.ack with
      | some a => [byteOf a.station, a.operator]
      | none => [0, 0] := by cases e.ack <;> rfl
  have hstate : e.state.code = match e.state with
      | .active => 1
      | .cleared => 2
      | .inhibited => 3
      | .retired => 4 := by cases e.state <;> rfl
  rw [← hstamp, ← hack, ← hstate]
  simp only [entryBytes, entryFlags, entryPresence, flags5_eq, natHalfBytes_eq, timeBytes_eq, halfBytes_eq]
  rfl

/-! ## The view read (R84, R85, R107) -/

/-- A reading request at a port that is ready: nothing but the port changes. -/
theorem exec_read {r : Request} {st : Status} {data : List Byte} (hready : s.ready = true) (hr : r.inRange = true)
    (h : State.serve s.taking r = (s.taking, some (st, data))) : exec r.command s = .next (s.replied r.code st data) :=
  exec_command_answered (u := s.taking) hready hr h rfl

/-- A request outside its range is turned away. -/
theorem exec_badFormat {r : Request} (hready : s.ready = true) (h : r.params.length ≤ 59) (hr : ¬ r.inRange = true)
    (hparse : Request.parse r.code r.params = .error .badFormat) :
    exec r.command s = .next (s.replied r.code .badFormat []) :=
  (exec_command r s).trans (congrArg Host.Outcome.next (State.receive_badFormat hready h hr hparse))

/-- The entry of the least key above, from its place in the view. -/
theorem nextEntry_at {v a b : List Entry} {e : Entry} {o p : Nat} (hv : v = a ++ e :: b)
    (ha : ∀ x ∈ a, ¬ keyLt o p x.origin x.point = true) (he : keyLt o p e.origin e.point = true) :
    nextEntry v o p = some e :=
  List.find?_eq_some_iff_append.2 ⟨he, a, b, hv, fun x hx => by rw [Bool.eq_false_iff.2 (ha x hx)]; rfl⟩

section Views

variable {o p n : Byte}

theorem exec_readTop (hready : s.ready = true) (h1 : 1 ≤ n.toNat) (h4 : n.toNat ≤ 4) : exec (.readTop n) s =
    .next (s.replied 0x02 .ok (byteOf ((dispatchOrder s.now s.view).take n.toNat).length ::
      ((dispatchOrder s.now s.view).take n.toNat).flatMap (entryBytes s.now s.unsent))) :=
  exec_read (r := .readTop n) hready (by simp [Request.inRange, h1, h4]) rfl

theorem exec_readTop_badFormat (hready : s.ready = true) (h : n.toNat = 0 ∨ 4 < n.toNat) :
    exec (.readTop n) s = .next (s.replied 0x02 .badFormat []) := by
  have hr : ¬ (Request.readTop n).inRange = true := by
    simp only [Request.inRange, decide_eq_true_eq]
    omega
  exact exec_badFormat (r := .readTop n) hready (show 1 ≤ 59 by decide) hr (if_neg hr)

theorem exec_readNext_found (hready : s.ready = true) {e : Entry} (h : nextEntry s.view o.toNat p.toNat = some e) :
    exec (.readNext o p) s = .next (s.replied 0x03 .ok (entryBytes s.now s.unsent e)) := by
  refine exec_read (r := .readNext o p) hready rfl ?_
  show s.taking.serveReadNext o.toNat p.toNat = _
  rw [State.serveReadNext, show nextEntry s.taking.view o.toNat p.toNat = some e from h]
  rfl

theorem exec_readNext_none (hready : s.ready = true) (h : nextEntry s.view o.toNat p.toNat = none) :
    exec (.readNext o p) s = .next (s.replied 0x03 .noEntry []) := by
  refine exec_read (r := .readNext o p) hready rfl ?_
  show s.taking.serveReadNext o.toNat p.toNat = _
  rw [State.serveReadNext, show nextEntry s.taking.view o.toNat p.toNat = none from h]
  rfl

theorem exec_readEntry_found (hready : s.ready = true) {e : Entry} (h : findEntry s.view o.toNat p.toNat = some e) :
    exec (.readEntry o p) s = .next (s.replied 0x04 .ok (entryBytes s.now s.unsent e)) := by
  refine exec_read (r := .readEntry o p) hready rfl ?_
  show s.taking.serveReadEntry o.toNat p.toNat = _
  rw [State.serveReadEntry, show findEntry s.taking.view o.toNat p.toNat = some e from h]
  rfl

theorem exec_readEntry_none (hready : s.ready = true) (h : findEntry s.view o.toNat p.toNat = none) :
    exec (.readEntry o p) s = .next (s.replied 0x04 .noEntry []) := by
  refine exec_read (r := .readEntry o p) hready rfl ?_
  show s.taking.serveReadEntry o.toNat p.toNat = _
  rw [State.serveReadEntry, show findEntry s.taking.view o.toNat p.toNat = none from h]
  rfl

end Views

/-! ## A point read (R21, R178) -/

/-- The bytes of a point's filter record (Table 11.6). -/
def State.recordBytes (s : State) (p : Nat) (family : Byte) : List Byte :=
  [byteOf p, family, (s.filter p).declared.code, kindByte (s.filter p).declared.kind, byteOf (s.filter p).p,
    kindByte (s.filter p).l, byteOf (s.filter p).r, byteOf (s.filter p).occurrences, flagByte (tget s.unsent p false)]

section Points

variable {p : Nat}

theorem State.pointBytes_unused (h : (s.filter p).declared = .unused) : s.pointBytes p = s.recordBytes p 0 := by
  simp only [State.pointBytes, State.recordBytes, h, if_true, List.append_nil]

theorem State.pointBytes_used {x : Family} (h : (s.filter p).declared ≠ .unused) (hx : s.cfg.family p = some x) :
    s.pointBytes p = s.recordBytes p x.code ++ s.liveBlock p x := by
  simp only [State.pointBytes, State.recordBytes, if_neg h, hx]

theorem exec_readPoint_notLocal {p : Byte} (hready : s.ready = true) (h : 31 < p.toNat) :
    exec (.readPoint p) s = .next (s.replied 0x09 .notLocal []) :=
  exec_read (r := .readPoint p) hready rfl (if_pos h)

theorem exec_readPoint {p : Byte} (hready : s.ready = true) (h : p.toNat ≤ 31) :
    exec (.readPoint p) s = .next (s.replied 0x09 .ok (s.pointBytes p.toNat)) :=
  exec_read (r := .readPoint p) hready rfl (if_neg (Nat.not_lt.2 h))

theorem family_of_channel {c : Settings} (hp : p < 16) :
    (∀ l, c.channel p = .lamp l → c.family p = some .lamp) ∧ (∀ l, c.channel p = .loop l → c.family p = some .loop) := by
  refine ⟨fun l h => ?_, fun l h => ?_⟩ <;> rw [Settings.family, if_pos hp, h]

end Points

/-- The live values of a lamp channel (Table 11.6). -/
theorem LampRecord.block_eq (r : LampRecord) (cfg : LampCfg) (lost : Bool) (now : Time) : r.block cfg lost now =
    [byteOf (bitOf r.latestCurrent.isSome 1 + bitOf r.latestRatio.isSome 2 + bitOf r.latestClass.isSome 4)] ++
    lowBytes (r.latestCurrent.getD 0) ++ [byteOf (bitOf r.demand 1 + bitOf cfg.demand.isSome 2), r.phase cfg lost now] ++
    lowBytes r.reference ++ [byteOf (bitOf (decide (cfg.reference = 0 ∧ r.reference ≠ 0)) 1), byteOf r.learnCount] ++
    lowBytes r.learnSum ++ [byteOf (bitOf r.learnFailed 1)] ++ lowBytes (r.latestRatio.getD 0) ++
    [classByte r.latestClass, match cfg.supply with
      | some n => byteOf (24 + n)
      | none => 0xFF] := by
  have hdemand : flagByte r.demand ||| (if cfg.demand.isSome then 2#8 else 0) =
      byteOf (bitOf r.demand 1 + bitOf cfg.demand.isSome 2) := by
    cases r.demand <;> cases cfg.demand.isSome <;> rfl
  have hsource : (cfg.reference == 0 && r.reference != 0) = decide (cfg.reference = 0 ∧ r.reference ≠ 0) := by
    rw [Bool.eq_iff_iff]
    simp
  have hsupply : (match cfg.supply with
      | none => 0xFF
      | some i => byteOf (inputPoint i) : Byte) = match cfg.supply with
      | some n => byteOf (24 + n)
      | none => 0xFF := by cases cfg.supply <;> rfl
  rw [← hsupply, ← hdemand, ← hsource]
  simp only [LampRecord.block, flags3_eq, natHalfBytes_eq, flagByte_eq]
  rfl

theorem LampRecord.phase_eq (r : LampRecord) (cfg : LampCfg) (lost : Bool) (now : Time) : r.phase cfg lost now =
    byteOf (if lost then 1
      else if r.demand && (match r.tw with
        | some t => decide ((now - t).toNat < cfg.warmUp)
        | none => false) then 2
      else if r.demand then (if r.reference = 0 then (if r.learnFailed then 4 else 3) else 5)
      else if (match r.tc with
        | some t => decide ((now - t).toNat < 10)
        | none => false) then 6 else 7) := by
  have hwarm : r.warming cfg now = (r.demand && match r.tw with
      | some t => decide ((now - t).toNat < cfg.warmUp)
      | none => false) := by
    unfold LampRecord.warming
    cases r.tw <;> rfl
  have hcool : r.cooling now = (!r.demand && match r.tc with
      | some t => decide ((now - t).toNat < 10)
      | none => false) := by
    unfold LampRecord.cooling
    cases r.tc <;> rfl
  rw [LampRecord.phase, hwarm, hcool]
  generalize (match r.tw with
    | some t => decide ((now - t).toNat < cfg.warmUp)
    | none => false) = warms
  generalize (match r.tc with
    | some t => decide ((now - t).toNat < 10)
    | none => false) = cools
  cases lost with
  | true => rfl
  | false =>
    cases r.demand with
    | false => cases cools <;> rfl
    | true =>
      cases warms with
      | true => rfl
      | false =>
        by_cases h0 : r.reference = 0
        · cases hf : r.learnFailed <;> simp [h0] <;> rfl
        · simp [h0]
          rfl

theorem State.supplyLost_eq (s : State) (cfg : LampCfg) : s.supplyLost cfg = match cfg.supply with
    | some n =>
      (match (s.filter (24 + n)).declared with
        | .fault _ => true
        | _ => false)
    | none => false := by
  unfold State.supplyLost
  cases cfg.supply with
  | none => rfl
  | some n =>
    simp only [inputPoint]
    cases (s.filter (24 + n)).declared <;> rfl

theorem gateLength_eq (code : Nat) : gateLength code = if code = 0 then 50 else if code = 2 then 200 else 100 := by
  unfold gateLength
  split
  · rfl
  · rfl
  · rename_i h0 h2
    rw [if_neg h0, if_neg h2]

/-- The live values of a loop channel (Table 11.6). -/
theorem LoopRecord.block_eq (r : LoopRecord) (gateMs : Nat) : r.block gateMs =
    [byteOf (bitOf r.latestCount.isSome 1 + bitOf r.capture.isSome 2 + bitOf r.latestDeviation.isSome 4 +
        bitOf r.latestDrift.isSome 8 + bitOf r.occStart.isSome 16 + bitOf r.lastOccEnd.isSome 32 +
        bitOf r.latestClass.isSome 64), byteOf gateMs] ++
    lowBytes (r.latestCount.getD 0) ++
    (match r.capture with
      | some x => (lowBytes (x.time.toNat % 65536) ++ lowBytes (x.time.toNat / 65536)) ++ lowBytes (x.baseline % 65536) ++
        lowBytes (x.baseline / 65536) ++ lowBytes (x.baseline / 64)
      | none => List.replicate 10 0) ++
    lowBytes r.nominal ++ [byteOf (bitOf r.nominalCaptured 1)] ++ lowBytes (r.latestDeviation.getD 0 % 65536).toNat ++
    lowBytes (r.latestDrift.getD 0) ++ [byteOf (bitOf r.occStart.isSome 1)] ++
    (lowBytes ((r.occStart.getD 0).toNat % 65536) ++ lowBytes ((r.occStart.getD 0).toNat / 65536)) ++
    (lowBytes ((r.lastOccEnd.getD 0).toNat % 65536) ++ lowBytes ((r.lastOccEnd.getD 0).toNat / 65536)) ++
    [classByte r.latestClass] := by
  have hcapture : timeBytes (r.capture.getD ⟨0, 0⟩).time ++ timeBytes (BitVec.ofNat 32 (r.capture.getD ⟨0, 0⟩).baseline) ++
      natHalfBytes (refCount (r.capture.getD ⟨0, 0⟩).baseline) = match r.capture with
      | some x => (lowBytes (x.time.toNat % 65536) ++ lowBytes (x.time.toNat / 65536)) ++ lowBytes (x.baseline % 65536) ++
        lowBytes (x.baseline / 65536) ++ lowBytes (x.baseline / 64)
      | none => List.replicate 10 0 := by
    cases r.capture with
    | none => decide
    | some x =>
      have hlow : lowBytes (x.baseline % 2 ^ 32 / 65536) = lowBytes (x.baseline / 65536) := by
        rw [lowBytes, lowBytes, show x.baseline % 2 ^ 32 / 65536 % 256 = x.baseline / 65536 % 256 by omega,
          show x.baseline % 2 ^ 32 / 65536 / 256 % 256 = x.baseline / 65536 / 256 % 256 by omega]
      rw [Option.getD_some, timeBytes_eq, timeBytes_eq, natHalfBytes_eq, BitVec.toNat_ofNat, hlow,
        show x.baseline % 2 ^ 32 % 65536 = x.baseline % 65536 by omega]
      simp only [List.append_assoc]
      rfl
  have hdeviation : halfBytes (BitVec.ofInt 16 (r.latestDeviation.getD 0)) =
      lowBytes (r.latestDeviation.getD 0 % 65536).toNat := by
    rw [halfBytes_eq, BitVec.toNat_ofInt]
    rfl
  rw [← hcapture, ← hdeviation]
  simp only [LoopRecord.block, flags7_eq, natHalfBytes_eq, timeBytes_eq, flagByte_eq, List.append_assoc]
  rfl

/-- The live values of a sign (Table 11.6). -/
theorem State.signBlock_eq (s : State) (a : Nat) : s.signBlock a =
    [byteOf (bitOf (s.signRecord a).lastOutcome.isSome 1 + bitOf (s.signRecord a).latestClass.isSome 2 +
        bitOf (s.signRecord a).lastGood.isSome 4), byteOf a, s.slc.state.code,
      byteOf (bitOf (decide (s.slc.current = some a)) 1)] ++
    lowBytes (s.cfg.signAt a).pixelLimit ++
    (match (s.signRecord a).lastOutcome with
      | none => [0, 0, 0, 0, 0, 0]
      | some (.good, t) => [1, 0] ++ (lowBytes (t.toNat % 65536) ++ lowBytes (t.toNat / 65536))
      | some (.noReply, t) => [2, 0] ++ (lowBytes (t.toNat % 65536) ++ lowBytes (t.toNat / 65536))
      | some (.garbled g, t) =>
        [3, byteOf (match g with
          | .short => 1
          | .framing => 2
          | .marker => 3
          | .address => 4
          | .check => 5)] ++ (lowBytes (t.toNat % 65536) ++ lowBytes (t.toNat / 65536))
      | some (.abandoned, t) => [4, 0] ++ (lowBytes (t.toNat % 65536) ++ lowBytes (t.toNat / 65536))) ++
    [classByte (s.signRecord a).latestClass] ++
    (match (s.signRecord a).lastGood with
      | none => List.replicate 8 0
      | some g => [byteOf (bitOf g.powerFail 1 + bitOf g.selfTest 2 + bitOf g.doorOpen 4)] ++ lowBytes g.pixels ++
        [g.message] ++ (lowBytes (g.time.toNat % 65536) ++ lowBytes (g.time.toNat / 65536))) := by
  have houtcome : (match (s.signRecord a).lastOutcome with
      | none => [0, 0] ++ timeBytes 0
      | some (o, t) => [o.code, o.reasonCode] ++ timeBytes t) = match (s.signRecord a).lastOutcome with
      | none => [0, 0, 0, 0, 0, 0]
      | some (.good, t) => [1, 0] ++ (lowBytes (t.toNat % 65536) ++ lowBytes (t.toNat / 65536))
      | some (.noReply, t) => [2, 0] ++ (lowBytes (t.toNat % 65536) ++ lowBytes (t.toNat / 65536))
      | some (.garbled g, t) =>
        [3, byteOf (match g with
          | .short => 1
          | .framing => 2
          | .marker => 3
          | .address => 4
          | .check => 5)] ++ (lowBytes (t.toNat % 65536) ++ lowBytes (t.toNat / 65536))
      | some (.abandoned, t) => [4, 0] ++ (lowBytes (t.toNat % 65536) ++ lowBytes (t.toNat / 65536)) := by
    cases (s.signRecord a).lastOutcome with
    | none => decide
    | some x =>
      obtain ⟨o, t⟩ := x
      simp only [timeBytes_eq]
      cases o with
      | garbled g => cases g <;> rfl
      | _ => rfl
  have hgood : [flagByte ((s.signRecord a).lastGood.getD ⟨false, false, false, 0, 0, 0⟩).powerFail |||
        (if ((s.signRecord a).lastGood.getD ⟨false, false, false, 0, 0, 0⟩).selfTest then 2#8 else 0) |||
        (if ((s.signRecord a).lastGood.getD ⟨false, false, false, 0, 0, 0⟩).doorOpen then 4#8 else 0)] ++
      natHalfBytes ((s.signRecord a).lastGood.getD ⟨false, false, false, 0, 0, 0⟩).pixels ++
      [((s.signRecord a).lastGood.getD ⟨false, false, false, 0, 0, 0⟩).message] ++
      timeBytes ((s.signRecord a).lastGood.getD ⟨false, false, false, 0, 0, 0⟩).time = match (s.signRecord a).lastGood with
      | none => List.replicate 8 0
      | some g => [byteOf (bitOf g.powerFail 1 + bitOf g.selfTest 2 + bitOf g.doorOpen 4)] ++ lowBytes g.pixels ++
        [g.message] ++ (lowBytes (g.time.toNat % 65536) ++ lowBytes (g.time.toNat / 65536)) := by
    cases (s.signRecord a).lastGood with
    | none => decide
    | some g =>
      rw [Option.getD_some, natHalfBytes_eq, timeBytes_eq, flagByte, show (1 : Byte) = 1#8 from rfl, flags3_eq]
      rfl
  have hcurrent : decide (s.slc.current = some a) = (s.slc.current == some a) := by
    rw [Bool.eq_iff_iff, decide_eq_true_eq, beq_iff_eq]
  rw [← houtcome, ← hgood, hcurrent]
  simp only [State.signBlock, flags3_eq, natHalfBytes_eq, flagByte_eq, List.append_assoc]
  rfl

/-- The demand of a lamp channel that the input supplies. -/
def State.suppliedDemand (s : State) (i n : Nat) : Option Bool :=
  match s.cfg.channel n, s.channel n with
  | .lamp l, .lamp x => if l.supply = some i then some x.demand else none
  | _, _ => none

theorem State.suppliedDemand_eq (s : State) (i n : Nat) : s.suppliedDemand i n = (s.suppliedLamp i n).map (·.demand) := by
  unfold State.suppliedDemand State.suppliedLamp
  cases s.cfg.channel n with
  | lamp cfg =>
    cases s.channel n with
    | lamp r => by_cases h : cfg.supply = some i <;> simp [h]
    | loop r => rfl
    | off a b => rfl
  | loop cfg => rfl
  | off => rfl

/-- The live values of an input (Table 11.6). -/
theorem State.inputBlock_eq (s : State) (i : Nat) : s.inputBlock i =
    [0, byteOf i, roleCode (s.cfg.inputAt i).role, byteOf (bitOf (s.cfg.inputAt i).activeHigh 1),
      byteOf (bitOf (s.cfg.inputAt i).filter 1), byteOf (bitOf (s.input i).latest 1), byteOf (bitOf (s.input i).previous 1),
      byteOf (bitOf (s.input i).filtered 1), byteOf (bitOf ((s.input i).filtered == (s.cfg.inputAt i).activeHigh) 1)] ++
    lowBytes ((List.range 16).map fun n => bitOf (s.suppliedDemand i n).isSome (2 ^ n)).sum ++
    [byteOf ((List.range 16).filter fun n => s.suppliedDemand i n == some true).length] := by
  have hmask : halfBytes ((channelNumbers.filter fun c => (s.suppliedLamp i c).isSome).foldl
      (fun h c => h ||| (1#16 <<< c)) 0) =
      lowBytes ((List.range 16).map fun n => bitOf (s.suppliedDemand i n).isSome (2 ^ n)).sum := by
    rw [List.foldl_filter, channelNumbers, halfBytes_orBits]
    simp only [State.suppliedDemand_eq, Option.isSome_map]
  have hcount : s.affectedCount i = ((List.range 16).filter fun n => s.suppliedDemand i n == some true).length := by
    refine congrArg List.length (List.filter_congr fun n _ => ?_)
    rw [State.suppliedDemand_eq]
    cases s.suppliedLamp i n with
    | none => rfl
    | some r => cases h : r.demand <;> simp [h]
  rw [← hmask, ← hcount]
  simp only [State.inputBlock, flagByte_eq]
  rfl

/-! ## READ ROLL (R111) -/

theorem rollBytes_unknown {r : RollRecord} (station : Byte) (h : r.newest = none) :
    rollBytes station r = [station, 0, 0, 0, 0, 0, 0, 0, 0, 0, 0] := by
  rw [rollBytes, h]
  rfl

theorem rollBytes_known {r : RollRecord} (station : Byte) {n : Half} (h : r.newest = some n) : rollBytes station r =
    [station, 1] ++ lowBytes n.toNat ++ (lowBytes (r.lastHeard.toNat % 65536) ++ lowBytes (r.lastHeard.toNat / 65536)) ++
      lowBytes r.heardDirect.toNat ++ [byteOf (bitOf r.silent 1)] := by
  rw [rollBytes, h]
  simp only [halfBytes_eq, timeBytes_eq, flagByte_eq]
  rfl

theorem exec_readRoll {station : Byte} (hready : s.ready = true) (h1 : 1 ≤ station.toNat) (h240 : station.toNat ≤ 240) :
    exec (.readRoll station) s = .next (s.replied 0x0C .ok (rollBytes station (rollGet s.roll station.toNat))) :=
  exec_read (r := .readRoll station) hready (by simp [Request.inRange, h1, h240]) rfl

theorem exec_readRoll_badFormat {station : Byte} (hready : s.ready = true) (h : station.toNat = 0 ∨ 240 < station.toNat) :
    exec (.readRoll station) s = .next (s.replied 0x0C .badFormat []) := by
  have hr : ¬ (Request.readRoll station).inRange = true := by
    simp only [Request.inRange, decide_eq_true_eq]
    omega
  exact exec_badFormat (r := .readRoll station) hready (show 1 ≤ 59 by decide) hr (if_neg hr)

/-- Settles O57: each reading request answers its bytes, written out, or the status that says why not. -/
theorem readsReport : Obligations.ReadsReport := by
  unfold Obligations.ReadsReport
  intro byte low time bit
  refine ⟨rfl, fun now unsent e => ?_, fun s n o p hready => ?_, fun s p station hready => ?_⟩
  · exact entryBytes_eq now unsent e
  · intro wire top above
    have habove : ∀ x : Entry, keyLt o.toNat p.toNat x.origin x.point = true ↔ above x := fun x => by
      rw [keyLt_iff]
      simp only [above, eq_comm]
    refine ⟨exec_readTop hready, exec_readTop_badFormat hready, fun a e b hv ha he => ?_, fun hnone => ?_,
      fun e => exec_readEntry_found hready, exec_readEntry_none hready⟩
    · exact exec_readNext_found hready (nextEntry_at hv (fun x hx => mt (habove x).1 (ha x hx)) ((habove e).2 he))
    · exact exec_readNext_none hready (List.find?_eq_none.2 fun x hx => mt (habove x).1 (hnone x hx))
  · intro i f kind cls state declared record answers
    have hkind : ∀ k, kindByte k = kind k := fun k => by cases k <;> rfl
    have hcls : ∀ x, classByte x = cls x := fun x => by
      cases x with
      | none => rfl
      | some c => cases c <;> rfl
    have hrecord : ∀ family, s.recordBytes i family = record family := by
      intro family
      have hcode : (s.filter i).declared.code = state :=
        (fun d : Declared => by cases d <;> rfl : ∀ d : Declared, d.code = match d with
          | .unused => 0
          | .normal => 1
          | .fault _ => 2
          | .inhibited => 3) f.declared
      have hdeclared : (s.filter i).declared.kind = declared :=
        (fun d : Declared => by cases d <;> rfl : ∀ d : Declared, d.kind = match d with
          | .fault k => some k
          | .unused => none
          | .normal => none
          | .inhibited => none) f.declared
      rw [State.recordBytes, hcode, hdeclared, hkind, hkind, flagByte_eq, byteOf_toNat_self]
      rfl
    have hanswers : ∀ {data}, i ≤ 31 → s.pointBytes i = data → answers data := by
      rintro data hi rfl
      exact exec_readPoint hready hi
    have hused : ∀ {x live code}, i ≤ 31 → f.declared ≠ .unused → s.cfg.family i = some x → x.code = code →
        s.liveBlock i x = live → answers (record code ++ live) := by
      rintro x live code hi hd hx rfl rfl
      exact hanswers hi (by rw [State.pointBytes_used hd hx, hrecord])
    refine ⟨exec_readPoint_notLocal hready, fun hi hd => hanswers hi ?_, fun x hi hd hx => ?_, fun cfg r hi hd hc hr => ?_,
      fun cfg r hi hd hc hr => ?_, fun h16 h23 hd hx => ?_, fun h24 h31 hd hx => ?_, fun h1 h240 => ⟨fun hn => ?_, fun n hn => ?_⟩,
      exec_readRoll_badFormat hready⟩
    · rw [State.pointBytes_unused hd, hrecord]
    · exact ⟨s.liveBlock i x, hused hi hd hx (by cases x <;> rfl) rfl⟩
    · intro lost within phase
      have hblock := r.block_eq cfg lost s.now
      rw [r.phase_eq, hcls] at hblock
      have hlive : s.liveBlock i .lamp = r.block cfg lost s.now := by
        simp only [State.liveBlock, hc, hr, State.supplyLost_eq]
        rfl
      refine hanswers (by omega) ?_
      rw [State.pointBytes_used hd ((family_of_channel hi).1 cfg hc), hrecord, hlive, hblock]
      simp only [List.append_assoc]
      rfl
    · have hblock := r.block_eq (gateLength s.cfg.gateCode)
      rw [gateLength_eq, hcls] at hblock
      have hlive : s.liveBlock i .loop = r.block (gateLength s.cfg.gateCode) := by
        simp only [State.liveBlock, hr]
      refine hanswers (by omega) ?_
      rw [State.pointBytes_used hd ((family_of_channel hi).2 cfg hc), hrecord, hlive, gateLength_eq, hblock]
      simp only [List.append_assoc]
      rfl
    · have hblock := s.signBlock_eq (i - 15)
      rw [hcls] at hblock
      have hslc : s.slc.state.code = byte (match s.slc.state with
          | .stopped => 0
          | .waiting => 1
          | .sending => 2
          | .awaiting => 3
          | .guarding => 4) := by cases s.slc.state <;> rfl
      rw [hslc] at hblock
      refine hanswers (by omega) ?_
      rw [State.pointBytes_used hd hx, hrecord, show s.liveBlock i .sign = s.signBlock (i - 15) from rfl, hblock]
      simp only [List.append_assoc]
      rfl
    · have hblock := s.inputBlock_eq (i - 24)
      have hrole : roleCode (s.cfg.inputAt (i - 24)).role = byte (match (s.cfg.inputAt (i - 24)).role with
          | .unused => 0
          | .demand => 1
          | .mains => 2
          | .door => 3
          | .general => 4) := by cases (s.cfg.inputAt (i - 24)).role <;> rfl
      rw [hrole] at hblock
      refine hanswers (by omega) ?_
      rw [State.pointBytes_used hd hx, hrecord, show s.liveBlock i .input = s.inputBlock (i - 24) from rfl, hblock]
      simp only [List.append_assoc]
      rfl
    · rw [exec_readRoll hready h1 h240, rollBytes_unknown station hn]
    · rw [exec_readRoll hready h1 h240, rollBytes_known station hn]
      rfl

end Sys2Proof.Machine

/-! The settings of an image (O7): each field from its bytes, clamped, and the ranges that follow; the wires of the loader. -/

namespace Sys2Proof.Machine

variable {m : Memory}

/-- A value kept where it lies in its range and set to the nearer end where it does not. -/
def limited (lo hi x : Nat) : Nat := if x < lo then lo else if hi < x then hi else x

theorem clamp_eq_limited {lo hi : Nat} (h : lo ≤ hi) (x : Nat) : clamp lo hi x = limited lo hi x := by
  unfold clamp limited
  split
  · omega
  · split <;> omega

theorem min_eq_limited (hi x : Nat) : min hi x = limited 0 hi x := by
  unfold limited
  split
  · omega
  · split <;> omega

theorem Memory.halfAt_eq (m : Memory) (x : Nat) :
    m.halfAt x = (Memory.read m x).toNat + 256 * (Memory.read m (x + 1)).toNat := by
  have hlow := (Memory.read m x).isLt
  have hhigh := (Memory.read m (x + 1)).isLt
  have hor := Nat.shiftLeft_add_eq_or_of_lt hlow (Memory.read m (x + 1)).toNat
  rw [Memory.halfAt, Memory.half, halfOf, BitVec.toNat_or, BitVec.toNat_shiftLeft, BitVec.toNat_setWidth,
    BitVec.toNat_setWidth, Nat.mod_eq_of_lt (show (Memory.read m x).toNat < 2 ^ 16 by omega),
    Nat.mod_eq_of_lt (show (Memory.read m (x + 1)).toNat < 2 ^ 16 by omega), Nat.mod_eq_of_lt, ← hor, Nat.shiftLeft_eq]
  · omega
  · rw [Nat.shiftLeft_eq]
    omega

theorem clampUnlessOff_eq {lo hi : Nat} (h : lo ≤ hi) (x : Nat) :
    clampUnlessOff lo hi x = if x = 0 then 0 else limited lo hi x := by
  rw [clampUnlessOff, clamp_eq_limited h]

theorem tget_ofFn {α : Type} {n i : Nat} (f : Fin n → α) (d : α) (h : i < n) : tget (Vector.ofFn f) i d = f ⟨i, h⟩ := by
  simp [tget, h]

section Fields

variable (m)

theorem settingsOf_channel {i : Nat} (h : i < 16) : (settingsOf m).channel i = channelCfgAt m i := tget_ofFn _ _ h

theorem settingsOf_inputAt {i : Nat} (h : i < 8) : (settingsOf m).inputAt i = inputCfgAt m i := tget_ofFn _ _ h

theorem settingsOf_signAt {a : Nat} (h1 : 1 ≤ a) (h8 : a ≤ 8) : (settingsOf m).signAt a = signCfgAt m a := by
  obtain ⟨n, rfl⟩ : ∃ n, a = n + 1 := ⟨a - 1, by omega⟩
  exact tget_ofFn _ _ (show n < 8 by omega)

theorem Kind.code_range (k : Kind) : 1 ≤ k.code ∧ k.code ≤ 18 := by cases k <;> decide

theorem settingsOf_severityOf (k : Kind) :
    (settingsOf m).severityOf k = clamp 1 7 (Memory.read m (19 + k.code)).toNat := by
  obtain ⟨h1, h18⟩ := k.code_range
  have hfield : (settingsOf m).severityOf k = clamp 1 7 (Memory.byteAt m (20 + (k.code - 1))) :=
    tget_ofFn _ _ (show k.code - 1 < 18 by omega)
  rw [hfield, show 20 + (k.code - 1) = 19 + k.code by omega]
  rfl

theorem inputOfRole_eq (role : Role) (x : Nat) : inputOfRole m role x =
    if x ≤ 7 ∧ ((settingsOf m).inputAt x).role = role then some x else none := by
  unfold inputOfRole
  by_cases h : x ≤ 7
  · rw [settingsOf_inputAt m (show x < 8 by omega)]
  · rw [if_neg fun h' => h h'.1, if_neg fun h' => h h'.1]

theorem roleOfCode_eq (x : Nat) : roleOfCode x = match x with
    | 1 => .demand
    | 2 => .mains
    | 3 => .door
    | 4 => .general
    | _ => .unused := rfl

end Fields

/-- Every field of the settings, from its bytes (Table 12.1). -/
theorem settingsOf_lamp {i : Nat} (h : i < 16) (hkind : (Memory.read m (58 + 16 * i)).toNat = 1) :
    (settingsOf m).channel i = .lamp (lampCfgAt m (58 + 16 * i)) := by
  rw [settingsOf_channel m h, channelCfgAt]
  exact if_pos hkind

theorem settingsOf_loop {i : Nat} (h : i < 16) (hkind : (Memory.read m (58 + 16 * i)).toNat = 2) :
    (settingsOf m).channel i = .loop (loopCfgAt m (58 + 16 * i)) := by
  rw [settingsOf_channel m h, channelCfgAt]
  refine (if_neg ?_).trans (if_pos hkind)
  rw [Memory.byteAt, hkind]
  decide

theorem settingsOf_off {i : Nat} (h : i < 16) (h1 : (Memory.read m (58 + 16 * i)).toNat ≠ 1)
    (h2 : (Memory.read m (58 + 16 * i)).toNat ≠ 2) : (settingsOf m).channel i = .off := by
  rw [settingsOf_channel m h, channelCfgAt]
  exact (if_neg h1).trans (if_neg h2)

/-- A LAMP channel of the settings is one of its record. -/
theorem lamp_of_settingsOf {i : Nat} {l : LampCfg} (h : (settingsOf m).channel i = .lamp l) : ∃ x, l = lampCfgAt m x := by
  by_cases hi : i < 16
  · rw [settingsOf_channel m hi, channelCfgAt] at h
    split at h
    · exact ⟨_, (ChannelCfg.lamp.inj h).symm⟩
    · split at h <;> cases h
  · rw [Settings.channel, tget_outside _ _ (Nat.not_lt.1 hi)] at h
    cases h

theorem loop_of_settingsOf {i : Nat} {l : LoopCfg} (h : (settingsOf m).channel i = .loop l) : ∃ x, l = loopCfgAt m x := by
  by_cases hi : i < 16
  · rw [settingsOf_channel m hi, channelCfgAt] at h
    split at h
    · cases h
    · split at h
      · exact ⟨_, (ChannelCfg.loop.inj h).symm⟩
      · cases h
  · rw [Settings.channel, tget_outside _ _ (Nat.not_lt.1 hi)] at h
    cases h

theorem paramsAt_eq (m : Memory) (x : Nat) : paramsAt m x =
    ⟨limited 1 15 (m.byteAt x), limited 1 15 (m.byteAt (x + 1)), limited 1 63 (m.byteAt (x + 2)),
      below (limited 1 63 (m.byteAt (x + 2))) (m.byteAt (x + 3)), limited 1 15 (m.byteAt (x + 4))⟩ := by
  simp only [paramsAt, clamp_eq_limited (show 1 ≤ 15 by decide), clamp_eq_limited (show 1 ≤ 63 by decide)]

theorem paramsAt_range (m : Memory) (x : Nat) :
    1 ≤ (paramsAt m x).up ∧ (paramsAt m x).up ≤ 15 ∧ 1 ≤ (paramsAt m x).down ∧ (paramsAt m x).down ≤ 15 ∧
      1 ≤ (paramsAt m x).on ∧ (paramsAt m x).on ≤ 63 ∧ (paramsAt m x).off < (paramsAt m x).on ∧
      1 ≤ (paramsAt m x).confirm ∧ (paramsAt m x).confirm ≤ 15 := by
  have h15 : ∀ y, 1 ≤ clamp 1 15 y ∧ clamp 1 15 y ≤ 15 := clamp_range (by decide)
  have h63 : ∀ y, 1 ≤ clamp 1 63 y ∧ clamp 1 63 y ≤ 63 := clamp_range (by decide)
  exact ⟨(h15 _).1, (h15 _).2, (h15 _).1, (h15 _).2, (h63 _).1, (h63 _).2, below_lt (h63 _).1 _, (h15 _).1, (h15 _).2⟩

theorem lampCfgAt_eq (m : Memory) (x : Nat) : lampCfgAt m x =
    ⟨limited 0 2046 (m.halfAt (x + 1)), limited 0 600 (m.halfAt (x + 3)), limited 1001 4000 (m.halfAt (x + 5)),
      limited 151 1000 (m.halfAt (x + 7)), below (limited 151 1000 (m.halfAt (x + 7))) (max 1 (m.halfAt (x + 9))),
      limited 1 2046 (m.halfAt (x + 11)), inputOfRole m .demand (m.byteAt (x + 13)),
      inputOfRole m .mains (m.byteAt (x + 14))⟩ := by
  simp only [lampCfgAt, min_eq_limited, clamp_eq_limited (show 1001 ≤ 4000 by decide),
    clamp_eq_limited (show 151 ≤ 1000 by decide), clamp_eq_limited (show 1 ≤ 2046 by decide)]

theorem loopCfgAt_eq (m : Memory) (x : Nat) : loopCfgAt m x =
    ⟨m.halfAt (x + 1), max 1 (m.halfAt (x + 3)), limited 1 1000 (m.halfAt (x + 5)),
      limited (limited 1 1000 (m.halfAt (x + 5)) + 1) 3200 (m.halfAt (x + 7)), limited 10 500 (m.halfAt (x + 9)),
      max 1 (m.byteAt (x + 11)), limited 0 72 (m.byteAt (x + 12))⟩ := by
  have hdetect := (clamp_range (show 1 ≤ 1000 by decide) (m.halfAt (x + 5))).2
  have hshort := clamp_eq_limited (show clamp 1 1000 (m.halfAt (x + 5)) + 1 ≤ 3200 by omega) (m.halfAt (x + 7))
  rw [← clamp_eq_limited (show 1 ≤ 1000 by decide), ← hshort]
  simp only [loopCfgAt, min_eq_limited, clamp_eq_limited (show 10 ≤ 500 by decide)]

theorem inputOfRole_some {role : Role} {x n : Nat} (h : inputOfRole m role x = some n) :
    n ≤ 7 ∧ ((settingsOf m).inputAt n).role = role := by
  rw [inputOfRole_eq] at h
  split at h
  · cases h
    assumption
  · cases h

theorem Memory.halfAt_le (m : Memory) (x : Nat) : m.halfAt x ≤ 65535 := Nat.le_of_lt_succ (Memory.half m x).isLt

theorem Memory.byteAt_le (m : Memory) (x : Nat) : m.byteAt x ≤ 255 := Nat.le_of_lt_succ (Memory.read m x).isLt

/-- The ranges of a LAMP channel's settings (R24, R25). -/
theorem lampCfgAt_range (m : Memory) (x : Nat) :
    (lampCfgAt m x).reference ≤ 2046 ∧ (lampCfgAt m x).warmUp ≤ 600 ∧ 1 ≤ (lampCfgAt m x).outLimit ∧
      (lampCfgAt m x).outLimit < (lampCfgAt m x).normalLow ∧ 151 ≤ (lampCfgAt m x).normalLow ∧
      (lampCfgAt m x).normalLow ≤ 1000 ∧ 1000 < (lampCfgAt m x).overLimit ∧ (lampCfgAt m x).overLimit ≤ 4000 ∧
      1 ≤ (lampCfgAt m x).dayThreshold ∧ (lampCfgAt m x).dayThreshold ≤ 2046 ∧
      (∀ n, (lampCfgAt m x).demand = some n → n ≤ 7 ∧ ((settingsOf m).inputAt n).role = .demand) ∧
      (∀ n, (lampCfgAt m x).supply = some n → n ≤ 7 ∧ ((settingsOf m).inputAt n).role = .mains) := by
  have hlow := clamp_range (show 151 ≤ 1000 by decide) (m.halfAt (x + 7))
  have hover := clamp_range (show 1001 ≤ 4000 by decide) (m.halfAt (x + 5))
  have hday := clamp_range (show 1 ≤ 2046 by decide) (m.halfAt (x + 11))
  have hout : 1 ≤ below (clamp 151 1000 (m.halfAt (x + 7))) (max 1 (m.halfAt (x + 9))) := by
    unfold below
    split <;> omega
  exact ⟨Nat.min_le_left _ _, Nat.min_le_left _ _, hout, below_lt (by omega) _, hlow.1, hlow.2, hover.1, hover.2, hday.1,
    hday.2, fun n hn => inputOfRole_some hn, fun n hn => inputOfRole_some hn⟩

/-- The ranges of a LOOP channel's settings (R40). -/
theorem loopCfgAt_range (m : Memory) (x : Nat) :
    (loopCfgAt m x).nominal ≤ 65535 ∧ 1 ≤ (loopCfgAt m x).openFloor ∧ (loopCfgAt m x).openFloor ≤ 65535 ∧
      1 ≤ (loopCfgAt m x).detect ∧ (loopCfgAt m x).detect ≤ 1000 ∧ (loopCfgAt m x).detect < (loopCfgAt m x).shortLimit ∧
      (loopCfgAt m x).shortLimit ≤ 3200 ∧ 10 ≤ (loopCfgAt m x).driftLimit ∧ (loopCfgAt m x).driftLimit ≤ 500 ∧
      1 ≤ (loopCfgAt m x).maxPresence ∧ (loopCfgAt m x).maxPresence ≤ 255 ∧ (loopCfgAt m x).maxSilence ≤ 72 := by
  have hdetect := clamp_range (show 1 ≤ 1000 by decide) (m.halfAt (x + 5))
  have hshort := clamp_range (show clamp 1 1000 (m.halfAt (x + 5)) + 1 ≤ 3200 by omega) (m.halfAt (x + 7))
  have hdrift := clamp_range (show 10 ≤ 500 by decide) (m.halfAt (x + 9))
  have hfloor := m.halfAt_le (x + 3)
  have hpresence := m.byteAt_le (x + 11)
  exact ⟨m.halfAt_le _, Nat.le_max_left _ _, show max 1 (m.halfAt (x + 3)) ≤ 65535 by omega, hdetect.1, hdetect.2, hshort.1,
    hshort.2, hdrift.1, hdrift.2, Nat.le_max_left _ _, show max 1 (m.byteAt (x + 11)) ≤ 255 by omega, Nat.min_le_left _ _⟩

theorem bne_zero_eq (n : Nat) : (n != 0) = decide (n ≠ 0) := by
  rw [Bool.eq_iff_iff, bne_iff_ne, decide_eq_true_eq]

theorem inputCfgAt_eq (m : Memory) (i : Nat) : inputCfgAt m i =
    ⟨roleOfCode (m.byteAt (342 + 3 * i)), decide (m.byteAt (343 + 3 * i) ≠ 0), decide (m.byteAt (344 + 3 * i) ≠ 0)⟩ := by
  rw [inputCfgAt, bne_zero_eq, bne_zero_eq]

theorem signCfgAt_eq (m : Memory) {a : Nat} (h1 : 1 ≤ a) : signCfgAt m a =
    ⟨decide (m.byteAt (315 + 3 * a) ≠ 0), (Memory.read m (316 + 3 * a)).toNat + 256 * (Memory.read m (316 + 3 * a + 1)).toNat⟩ := by
  rw [signCfgAt, bne_zero_eq, show 318 + 3 * (a - 1) = 315 + 3 * a by omega, show 319 + 3 * (a - 1) = 316 + 3 * a by omega,
    Memory.halfAt_eq]

theorem clampCode_range {top dflt : Nat} (h : dflt ≤ top) (x : Nat) : clampCode top dflt x ≤ top := by
  unfold clampCode
  split <;> assumption

theorem clampUnlessOff_range {lo hi : Nat} (h : lo ≤ hi) (x : Nat) :
    clampUnlessOff lo hi x = 0 ∨ lo ≤ clampUnlessOff lo hi x ∧ clampUnlessOff lo hi x ≤ hi := by
  unfold clampUnlessOff
  split
  · exact .inl rfl
  · exact .inr (clamp_range h x)

/-- The ranges of the settings that stand alone (R40, R58, R100, R117, R119, R141, R144, R162). -/
theorem settingsOf_range (m : Memory) :
    let c := settingsOf m
    c.trunkRate ≤ 3 ∧ 5 ≤ c.slotTime ∧ c.slotTime ≤ 100 ∧ c.keyUpDelay ≤ 250 ∧ c.hopBudget ≤ 7 ∧ 1 ≤ c.suppression ∧
    c.suppression ≤ 4 ∧ (c.refresh = 0 ∨ 5 ≤ c.refresh ∧ c.refresh ≤ 120) ∧ 1 ≤ c.presence ∧ c.presence ≤ 60 ∧
    (c.silence = 0 ∨ 10 ≤ c.silence ∧ c.silence ≤ 240) ∧ 10 ≤ c.retireHold ∧ c.retireHold ≤ 240 ∧ 10 ≤ c.holdoff ∧
    c.holdoff ≤ 600 ∧ 1 ≤ c.condenseOn ∧ c.condenseOn ≤ 32 ∧ c.condenseOff < c.condenseOn ∧ 1 ≤ c.condenseFloor ∧
    c.condenseFloor ≤ 7 ∧ c.startLevel ≤ 7 ∧ c.gateCode ≤ 2 ∧ c.signRate ≤ 4 ∧ 2 ≤ c.pollInterval ∧ c.pollInterval ≤ 60 ∧
    50 ≤ c.replyTimeout ∧ c.replyTimeout ≤ 1000 := by
  intro c
  have hon := clamp_range (show 1 ≤ 32 by decide) (m.byteAt 15)
  have hrange : ∀ {lo hi : Nat}, lo ≤ hi → ∀ x, lo ≤ clamp lo hi x ∧ clamp lo hi x ≤ hi := clamp_range
  exact ⟨clampCode_range (by decide) _, (hrange (by decide) _).1, (hrange (by decide) _).2, Nat.min_le_left _ _,
    Nat.min_le_left _ _, (hrange (by decide) _).1, (hrange (by decide) _).2, clampUnlessOff_range (by decide) _,
    (hrange (by decide) _).1, (hrange (by decide) _).2, clampUnlessOff_range (by decide) _, (hrange (by decide) _).1,
    (hrange (by decide) _).2, (hrange (by decide) _).1, (hrange (by decide) _).2, hon.1, hon.2, below_lt hon.1 _,
    (hrange (by decide) _).1, (hrange (by decide) _).2, Nat.min_le_left _ _, clampCode_range (by decide) _,
    clampCode_range (by decide) _, (hrange (by decide) _).1, (hrange (by decide) _).2, (hrange (by decide) _).1,
    (hrange (by decide) _).2⟩

/-- Settles O7: field by field. -/
theorem clampedSettingsInRange : Obligations.ClampedSettingsInRange := by
  unfold Obligations.ClampedSettingsInRange
  refine ⟨fun m => ?_, rfl, fun n => rfl, fun w => rfl, rfl⟩
  intro c b w lim under named
  have hw : ∀ x, m.halfAt x = w x := m.halfAt_eq
  have hclamp : ∀ {lo hi : Nat}, lo ≤ hi → ∀ x, clamp lo hi x = lim lo hi x := fun h x => clamp_eq_limited h x
  have hparams : ∀ f x, (f, x) ∈ [(Family.lamp, 38), (.loop, 43), (.sign, 48), (.input, 53)] → c.params f = paramsAt m x := by
    intro f x h
    simp only [List.mem_cons, Prod.mk.injEq, List.not_mem_nil, or_false] at h
    rcases h with ⟨rfl, rfl⟩ | ⟨rfl, rfl⟩ | ⟨rfl, rfl⟩ | ⟨rfl, rfl⟩ <;> rfl
  refine ⟨rfl, hclamp (by decide) _, min_eq_limited _ _, min_eq_limited _ _, hclamp (by decide) _,
    clampUnlessOff_eq (by decide) _, hclamp (by decide) _, clampUnlessOff_eq (by decide) _, hclamp (by decide) _,
    (hclamp (by decide) _).trans (congrArg _ (hw _)), hclamp (by decide) _, rfl, hclamp (by decide) _, min_eq_limited _ _, rfl,
    rfl, hclamp (by decide) _, (hclamp (by decide) _).trans (congrArg _ (hw _)),
    fun k => (settingsOf_severityOf m k).trans (hclamp (by decide) _), fun f x h => (hparams f x h).trans (paramsAt_eq m x),
    fun i hi => ⟨fun h1 => ?_, fun h2 => ?_, settingsOf_off hi⟩, fun a h1 h8 => ?_, fun i hi => ?_, fun f => ?_, fun k => ?_,
    fun i l h => ?_, fun i l h => ?_, ?_⟩
  · refine (settingsOf_lamp hi h1).trans (congrArg ChannelCfg.lamp ?_)
    rw [lampCfgAt_eq]
    simp only [hw, inputOfRole_eq]
    rfl
  · refine (settingsOf_loop hi h2).trans (congrArg ChannelCfg.loop ?_)
    rw [loopCfgAt_eq]
    simp only [hw]
    rfl
  · rw [settingsOf_signAt m h1 h8, signCfgAt_eq m h1]
    rfl
  · rw [settingsOf_inputAt m hi, inputCfgAt_eq]
    rfl
  · cases f <;> exact paramsAt_range m _
  · exact (severitiesOk_settingsOf m).severityOf k
  · obtain ⟨x, rfl⟩ := lamp_of_settingsOf h
    exact lampCfgAt_range m x
  · obtain ⟨x, rfl⟩ := loop_of_settingsOf h
    exact loopCfgAt_range m x
  · exact settingsOf_range m

end Sys2Proof.Machine

/-! The ends of the memory writes (O9) and entry to RUN (O8). -/

namespace Sys2Proof.Machine

variable {s : State}

/-! ## The end of a write (O9) -/

/-- A memory holds what a write that has ended leaves: outside the bytes what stood before, in them the bytes written or, where
the write failed, old or new ones. -/
def Stored (before after : Memory) (acked : Bool) (x : Nat) (bs : List Byte) : Prop :=
  (∀ y, y < x ∨ x + bs.length ≤ y → Memory.read after y = Memory.read before y) ∧
  (acked = true → ∀ k, k < bs.length → Memory.read after (x + k) = (bs[k]?).getD 0) ∧
  (acked = false → ∀ k, k < bs.length →
    Memory.read after (x + k) = (bs[k]?).getD 0 ∨ Memory.read after (x + k) = Memory.read before (x + k))

theorem State.memoryAfter_stored (acked : Bool) {x : Nat} {bs : List Byte} (hwf : Memory.wf s.mem = true)
    (hx : x + bs.length ≤ memorySize) : Stored s.mem (s.memoryAfter acked x bs).mem acked x bs := by
  cases acked with
  | true =>
    refine ⟨fun y hy => Memory.read_writeBytes_outside bs x hwf hy, fun _ k hk => ?_, nofun⟩
    refine (Memory.read_writeBytes bs x (x + k) hwf hx).trans ?_
    rw [if_pos ⟨by omega, by omega⟩, show x + k - x = k by omega]
  | false =>
    exact ⟨fun y hy => Memory.read_maybeWritten_outside bs x s.free hwf hy, nofun,
      fun _ k hk => Memory.read_maybeWritten bs x s.free k hwf hx hk⟩

/-- The operation that a write's end lets begin (R174, R184, R188). -/
theorem State.nextOperation_loader (s : State) :
    if s.restart = .replyEnded then s.nextOperation.loader = { s.loader with op := none }
    else match s.loader.pendingStart, s.loader.waitingConfig with
      | none, none => s.nextOperation.loader = ⟨none, none, none⟩
      | some n, none => s.nextOperation.loader = ⟨some (.startWrite n), none, none⟩
      | none, some w => s.nextOperation.loader = ⟨some (.configWrite w), none, none⟩
      | some n, some w => s.nextOperation.loader = ⟨some (.startWrite n), none, some w⟩ ∨
          s.nextOperation.loader = ⟨some (.configWrite w), some n, none⟩ := by
  by_cases hr : s.restart = .replyEnded
  · rw [if_pos hr, State.nextOperation, if_pos hr]
  · rw [if_neg hr]
    cases hp : s.loader.pendingStart with
    | none =>
      cases hw : s.loader.waitingConfig with
      | none => simp only [State.nextOperation, if_neg hr, hp, hw]
      | some w => simp only [State.nextOperation, if_neg hr, hp, hw]
    | some n =>
      cases hw : s.loader.waitingConfig with
      | none => simp only [State.nextOperation, if_neg hr, hp, hw]
      | some w =>
        simp only [State.nextOperation, if_neg hr, hp, hw]
        split
        · exact .inl rfl
        · exact .inr rfl

/-- Where a write has ended outside LOADING, the memory, its marks, a reply and the operation in progress alone change. -/
theorem State.nextOperation_keeps (s : State) (m : Memory) (free : Nat) (fail : Bool) (c : Console) {t : State}
    (ht : t = State.nextOperation { s with mem := m, free := free, startWriteFail := fail, cp := c }) :
    t = { s with mem := t.mem, free := t.free, loader := t.loader, startWriteFail := fail, cp := c } := by
  have hnext := State.nextOperation_eq { s with mem := m, free := free, startWriteFail := fail, cp := c }
  rw [← ht] at hnext
  have hmem : t.mem = m := by rw [hnext]
  rw [hmem]
  exact hnext

theorem State.startWriteEnds_started (hm : s.mode ≠ .loading) (n : Half) (acked : Bool) (levels : BitVec 8) :
    s.startWriteEnds n acked levels = State.nextOperation { s with
      mem := (s.memoryAfter acked 504 (startRecord n)).mem, free := (s.memoryAfter acked 504 (startRecord n)).free
      startWriteFail := s.startWriteFail || !acked } := by
  have hmem := s.memoryAfter_eq acked 504 (startRecord n)
  have hmode : ¬ (s.memoryAfter acked 504 (startRecord n)).mode = .loading := by rwa [hmem]
  rw [State.startWriteEnds, if_neg hmode]
  exact congrArg (fun v : State => State.nextOperation { v with startWriteFail := v.startWriteFail || !acked }) hmem

theorem State.configWriteEnds_eq (s : State) (w : ConfigWrite) (acked : Bool) :
    s.configWriteEnds w acked = State.nextOperation { s with
      mem := (s.memoryAfter acked w.offset w.bytes).mem, free := (s.memoryAfter acked w.offset w.bytes).free
      cp := { s.cp with reply := some ⟨0x13, if acked then .ok else .memoryFault, []⟩ } } :=
  congrArg (fun v : State => State.nextOperation
    { v with cp := { v.cp with reply := some ⟨0x13, if acked then .ok else .memoryFault, []⟩ } })
    (s.memoryAfter_eq acked w.offset w.bytes)

theorem exec_startRecordWriteDone {n : Half} (hop : s.loader.op = some (.startWrite n)) (acked : Bool) (levels : BitVec 8) :
    exec (.startRecordWriteDone acked levels) s = .next (s.startWriteEnds n acked levels) := by
  simp only [exec, execStartRecordWriteDone, hop]

theorem exec_configWriteDone {w : ConfigWrite} (hop : s.loader.op = some (.configWrite w)) (acked : Bool) :
    exec (.configWriteDone acked) s = .next (s.configWriteEnds w acked) := by
  simp only [exec, execConfigWriteDone, hop]

theorem exec_memoryPollTimeout_start {n : Half} (hop : s.loader.op = some (.startWrite n)) (levels : BitVec 8) :
    exec (.memoryPollTimeout levels) s = .next (s.startWriteEnds n false levels) := by
  simp only [exec, execMemoryPollTimeout, hop]

theorem exec_memoryPollTimeout_config {w : ConfigWrite} (hop : s.loader.op = some (.configWrite w)) (levels : BitVec 8) :
    exec (.memoryPollTimeout levels) s = .next (s.configWriteEnds w false) := by
  simp only [exec, execMemoryPollTimeout, hop]

/-- Settles O9: the memory is that of `State.memoryAfter`; the rest is `State.nextOperation`. -/
theorem memoryWriteEnds : Obligations.MemoryWriteEnds := by
  unfold Obligations.MemoryWriteEnds
  intro s acked levels hwf stored next
  have hnext : ∀ u : State, u.restart = s.restart → u.loader = s.loader → next u.nextOperation := fun u hr hl => by
    have hloader := u.nextOperation_loader
    rw [hr, hl] at hloader
    exact hloader
  refine ⟨fun n hop => ⟨_, exec_startRecordWriteDone hop acked levels, ?_⟩, fun n hop hmode =>
    ⟨_, exec_startRecordWriteDone hop acked levels, fun hacked => ?_, ?_, ?_⟩, fun w hop hw =>
    ⟨_, exec_configWriteDone hop acked, fun hacked => ?_, ?_, ?_, ?_⟩⟩
  · have hmem := (s.startWriteEnds_writeEnded n acked levels).2
    have hstored := State.memoryAfter_stored acked (bs := startRecord n) hwf (show 504 + 4 ≤ 512 by decide)
    rw [← hmem] at hstored
    exact hstored
  · rw [hacked]
    exact exec_memoryPollTimeout_start hop levels
  · exact s.nextOperation_keeps _ _ _ s.cp (State.startWriteEnds_started hmode n acked levels)
  · rw [State.startWriteEnds_started hmode]
    exact hnext _ rfl rfl
  · rw [hacked]
    exact exec_memoryPollTimeout_config hop levels
  · exact s.nextOperation_keeps _ _ s.startWriteFail _ (s.configWriteEnds_eq w acked)
  · have hmem := (s.configWriteEnds_writeEnded w acked).2
    have hstored := State.memoryAfter_stored acked (bs := w.bytes) (x := w.offset) hwf (show _ ≤ 512 by omega)
    rw [← hmem] at hstored
    exact hstored
  · rw [State.configWriteEnds_eq]
    exact hnext _ rfl rfl

/-! ## Entry to RUN (O8) -/

/-- The item that the first own ALIVE leaves in the queue (R117, R185). -/
def firstAlive (number : Nat) (count : Half) (hop : Nat) : QItem := ⟨.alive ⟨number, count, hop⟩, 1, .own, 0, 0⟩

theorem charge_firstAlive (number : Nat) (count : Half) (hop : Nat) : (firstAlive number count hop).item.charge = 12 :=
  charge_alive _

/-- An own ALIVE offered to the empty queue outside condensed mode stands in it alone (R126, R130, R132). -/
theorem offerItem_alive_of_empty {c : Ctx} (hm : c.mode = .run) (hon : 1 ≤ c.cfg.condenseOn)
    (roll : Vector RollRecord 240) (view : List Entry) (count : Half) (hop : Nat) {q : QueueSide} (hq : q.queue = [])
    (hseq : q.nextSeq = 0) (hc : q.condensed = false) : offerItem c roll view (firstAlive c.number count hop) q =
      { q.count .itemsQueued with queue := [firstAlive c.number count hop], nextSeq := 1 } := by
  obtain ⟨queue, nextSeq, condensed, unsent, counters⟩ := q
  dsimp only at hq hseq hc
  subst hq hseq hc
  have hold : olderThanRoll c roll (firstAlive c.number count hop).item = false := by
    simp [olderThanRoll, firstAlive]
  have hcheck : perKeyCheck view [] (firstAlive c.number count hop) = some (firstAlive c.number count hop) :=
    perKeyCheck_uncovered (fun _ _ => rfl) nofun
  have hcharge : totalCharge [firstAlive c.number count hop] = 12 := by
    simp [totalCharge, charge_firstAlive]
  have hcore := offerCore_of_check (q := ⟨[], 0, false, unsent, counters⟩) hm hold hcheck
  have hplace : placeOffer c view (firstAlive c.number count hop) ⟨[], 0, false, unsent, counters⟩ =
      ({ QueueSide.count ⟨[], 0, false, unsent, counters⟩ .itemsQueued with
         queue := [firstAlive c.number count hop], nextSeq := 1 }, 0) := by
    have hfit : (fitIn c (firstAlive c.number count hop) [firstAlive c.number count hop] []
        ⟨[], 1, false, unsent, counters⟩) =
        (QueueSide.count (QueueSide.count ⟨[firstAlive c.number count hop], 1, false, unsent, counters⟩ .droppedFull 0)
          .itemsQueued, 0) := by
      simp [fitIn, evictBack, charge_firstAlive, chargeLimit, markUnsent, totalCharge]
    have hinsert : placeOffer c view (firstAlive c.number count hop) ⟨[], 0, false, unsent, counters⟩ =
        fitIn c (firstAlive c.number count hop) [firstAlive c.number count hop] [] ⟨[], 1, false, unsent, counters⟩ := rfl
    rw [hinsert, hfit, QueueSide.count_zero]
    rfl
  have hbelow : ∀ (n : Nat) (q : QueueSide), n < 64 → q.condensed = false → testAt c n q = q := fun n q hn hq => by
    obtain ⟨_, _, _, _, _⟩ := q
    dsimp only at hq
    subst hq
    unfold testAt
    rw [if_neg (by omega)]
    split <;> rfl
  rw [hplace, hbelow 0 _ (by decide) rfl] at hcore
  have hlast := hbelow (totalCharge [firstAlive c.number count hop]) { QueueSide.count
    ⟨[], 0, false, unsent, counters⟩ .itemsQueued with queue := [firstAlive c.number count hop], nextSeq := 1 }
    (by omega) rfl
  have hpass : (offerTested c roll view (firstAlive c.number count hop) ⟨[], 0, false, unsent, counters⟩).2 = false := by
    simp [offerTested, hm, hold, hcheck]
  unfold offerItem
  simp only [hpass]
  exact hcore.trans hlast

/-- The state with which RUN begins (R12, R22, R117, R153, R164, R185). -/
theorem State.enterRun_eq (hon : 1 ≤ s.cfg.condenseOn) (count : Half) (levels : BitVec 8) :
    s.enterRun count levels =
      { s.runBlocks count levels with
        queue := [firstAlive s.number count s.cfg.hopBudget], nextSeq := 1, counters := (s.count .itemsQueued).counters
        trunk := (s.runBlocks count levels).trunk.settled [firstAlive s.number count s.cfg.hopBudget] ⟨0, 0⟩ } := by
  have hoffer := offerItem_alive_of_empty (c := (s.runBlocks count levels).ctx) rfl hon (s.runBlocks count levels).roll []
    count s.cfg.hopBudget (q := (s.runBlocks count levels).toQueueSide) rfl rfl rfl
  exact congrArg (fun q : QueueSide => State.settle { s.runBlocks count levels with toQueueSide := q }) hoffer

/-- The trunk as entry to RUN leaves it: the own ALIVE opens an access where CD is inactive (R143, R153, R154). -/
theorem State.enterRun_trunk (s : State) (number : Nat) (count : Half) (levels : BitVec 8) (hop : Nat) :
    (s.runBlocks count levels).trunk.settled [firstAlive number count hop] ⟨0, 0⟩ =
      if s.trunk.cd then ⟨.enabled, .idle, 0, none, true, none, lfsrSeed s.number count, none, none⟩
      else ⟨.enabled, .defer, 7 + (lfsrDraw (lfsrSeed s.number count)).toNat % 16, some ⟨0, 0⟩, false, none,
        lfsrDraw (lfsrSeed s.number count), none, none⟩ := by
  have htrunk : (s.runBlocks count levels).trunk =
      ⟨.enabled, .idle, 0, none, s.trunk.cd, none, lfsrSeed s.number count, none, none⟩ := rfl
  rw [htrunk]
  cases s.trunk.cd with
  | true => exact Trunk.settled_waits rfl (.inr (.inl nofun))
  | false => exact Trunk.settled_opens rfl rfl rfl

theorem lfsrSeed_eq {number : Nat} (h1 : 1 ≤ number) (h240 : number ≤ 240) (count : Half) :
    lfsrSeed number count = if number * 256 + count.toNat % 256 = 0 then 1#16
      else BitVec.ofNat 16 (number * 256 + count.toNat % 256) := by
  rw [if_neg (by omega)]
  exact BitVec.eq_of_toNat_eq ((lfsrSeed_toNat count h1 h240).trans (by rw [BitVec.toNat_ofNat]; omega))

theorem channel_lt_of_used {cfg : Settings} {c : Nat} (h : cfg.channel c ≠ .off) : c < 16 :=
  Nat.lt_of_not_le fun hc => h (tget_outside _ _ hc)

theorem State.runBlocks_channel (s : State) (count : Half) (levels : BitVec 8) {c : Nat} (h : c < 16) :
    (s.runBlocks count levels).channel c = channelAtStart s.cfg levels c := tget_ofFn _ _ h

theorem State.runBlocks_input (s : State) (count : Half) (levels : BitVec 8) {i : Nat} (h : i < 8) :
    (s.runBlocks count levels).input i = ⟨levels.getLsbD i, levels.getLsbD i, levels.getLsbD i⟩ := tget_ofFn _ _ h

theorem State.runBlocks_signRecord (s : State) (count : Half) (levels : BitVec 8) (a : Nat) :
    (s.runBlocks count levels).signRecord a = ⟨none, none, none⟩ := tget_replicate _ _

/-- Every filter record as entry to RUN sets it; a number outside 0..31 has no family (R1, R22). -/
theorem State.runBlocks_filters (s : State) (count : Half) (levels : BitVec 8) (p : Nat) :
    (s.runBlocks count levels).filter p = ⟨if (s.cfg.family p).isSome then .normal else .unused, 0, none, 0, 0⟩ := by
  by_cases hp : p < 32
  · exact runBlocks_filter s count levels hp
  · have hfamily : s.cfg.family p = none := by
      unfold Settings.family
      rw [if_neg (by omega), if_neg (by omega), if_neg hp]
    rw [hfamily]
    exact tget_outside _ _ (by omega)

theorem State.runBlocks_roll (h1 : 1 ≤ s.number) (h240 : s.number ≤ 240) (count : Half) (levels : BitVec 8) (o : Nat) :
    rollGet (s.runBlocks count levels).roll o = if o = s.number then ⟨some count, 0, 0, false⟩ else ⟨none, 0, 0, false⟩ := by
  by_cases ho : o = s.number
  · rw [if_pos ho, ho]
    exact State.runBlocks_ownRecord count levels ⟨h1, h240⟩
  · rw [if_neg ho]
    have hother : rollGet (s.runBlocks count levels).roll o = rollGet State.reset.roll o :=
      rollGet_rollSet_ne _ _ (Ne.symm ho)
    rw [hother]
    unfold rollGet
    split
    · exact tget_replicate _ _
    · rfl

theorem slcAtStart_none {cfg : Settings} (h : nextSign cfg 0 = none) :
    slcAtStart cfg = ⟨.stopped, none, false, none, [], none, none⟩ := if_pos h

theorem slcAtStart_some {cfg : Settings} {a : Nat} (h : nextSign cfg 0 = some a) :
    slcAtStart cfg = ⟨.sending, some ⟨0, 0⟩, false, some a, [], none, none⟩ := by
  rw [slcAtStart, if_neg (by rw [h]; nofun), Slc.startCycle_of_next h]
  rfl

/-- A write of the start record that ends in LOADING is entry to RUN, whatever it left in the memory (R184). -/
theorem State.startWriteEnds_loading (hm : s.mode = .loading) (n : Half) (acked : Bool) (levels : BitVec 8) :
    s.startWriteEnds n acked levels = State.enterRun { s with
      mem := (s.memoryAfter acked 504 (startRecord n)).mem, free := (s.memoryAfter acked 504 (startRecord n)).free
      startWriteFail := !acked } n levels := by
  have hmem := s.memoryAfter_eq acked 504 (startRecord n)
  have hmode : (s.memoryAfter acked 504 (startRecord n)).mode = .loading := by rwa [hmem]
  rw [State.startWriteEnds, if_pos hmode]
  exact congrArg (fun v : State => State.enterRun { v with startWriteFail := !acked } n levels) hmem

/-- Settles O8: the end of the write is `State.enterRun`, whose blocks the lemmas above give one by one. -/
theorem startWriteEntersRun : Obligations.StartWriteEntersRun := by
  unfold Obligations.StartWriteEntersRun
  intro s n acked levels hm hop h1 h240 hon
  refine ⟨_, exec_startRecordWriteDone hop acked levels, fun hacked => ?_, ?_⟩
  · rw [hacked]
    exact exec_memoryPollTimeout_start hop levels
  rw [State.startWriteEnds_loading hm]
  generalize hu : ({ s with
    mem := (s.memoryAfter acked 504 (startRecord n)).mem, free := (s.memoryAfter acked 504 (startRecord n)).free
    startWriteFail := !acked } : State) = u
  obtain ⟨hcfg, hnumber, hfail, hcount, hcd⟩ : u.cfg = s.cfg ∧ u.number = s.number ∧ u.startWriteFail = !acked ∧
      (u.count .itemsQueued).counters = (s.count .itemsQueued).counters ∧ u.trunk.cd = s.trunk.cd := by
    subst hu
    exact ⟨rfl, rfl, rfl, rfl, rfl⟩
  rw [State.enterRun_eq (hcfg ▸ hon), State.enterRun_trunk, ← hcfg, ← hnumber, ← hfail, ← hcount, ← hcd]
  rw [← hnumber] at h1 h240
  refine ⟨rfl, rfl, rfl, rfl, rfl, rfl, rfl, rfl, rfl, rfl, rfl, rfl, rfl, rfl, rfl, rfl,
    fun p => tget_replicate _ _, rfl, u.runBlocks_roll h1 h240 n levels, u.runBlocks_filters n levels,
    fun c l hl => ?_, fun c l hl => ?_, fun i hi => u.runBlocks_input n levels hi, u.runBlocks_signRecord n levels,
    slcAtStart_none, fun a => slcAtStart_some, ?_, rfl, rfl, rfl, rfl, rfl⟩
  · have hc : c < 16 := channel_lt_of_used (by rw [hl]; nofun)
    refine ⟨demandAtStart u.cfg l levels, (u.runBlocks_channel n levels hc).trans ?_, fun hd => ?_, fun i hi => ?_⟩
    · rw [channelAtStart, hl]
      rfl
    · rw [demandAtStart, hd]
    · rw [demandAtStart, hi]
  · have hc : c < 16 := channel_lt_of_used (by rw [hl]; nofun)
    refine (u.runBlocks_channel n levels hc).trans ?_
    rw [channelAtStart, hl]
    rfl
  · rw [lfsrSeed_eq h1 h240]

end Sys2Proof.Machine

/-! The periodic events and the epoch advance: MINUTE_SCAN (O46), SILENCE_CHECK (O47), PRESENCE_TIME and REFRESH (O51), and
what an epoch advance does to the view and the queue (O48). -/

namespace Sys2Proof.Machine

variable {s : State} {c : Ctx}

theorem State.live_iff (s : State) : s.live = true ↔ s.mode = .run ∨ s.mode = .listen := decide_eq_true_iff

/-! ## Finding an entry in a view from which some are left out -/

theorem findEntry_filter_none {v : List Entry} {o p : Nat} (f : Entry → Bool) (h : findEntry v o p = none) :
    findEntry (v.filter f) o p = none :=
  List.find?_eq_none.2 fun e he => List.find?_eq_none.1 h e (List.mem_of_mem_filter he)

/-- In a view in key order a key has one entry: left out, nothing is found. -/
theorem findEntry_filter_out {v : List Entry} {o p : Nat} {e : Entry} {f : Entry → Bool} (hv : viewOrdered v = true)
    (h : findEntry v o p = some e) (hf : f e = false) : findEntry (v.filter f) o p = none := by
  refine List.find?_eq_none.2 fun x hx hkey => ?_
  obtain ⟨hmem, hkept⟩ := List.mem_filter.1 hx
  obtain ⟨ho, hp⟩ := (x.hasKey_iff o p).1 hkey
  have hfound := findEntry_of_mem hv hmem
  rw [ho, hp, h] at hfound
  obtain rfl := Option.some.inj hfound
  rw [hf] at hkept
  nomatch hkept

/-! ## MINUTE_SCAN (O46) -/

theorem retireDue_iff (now : Time) (e : Entry) : retireDue now e = true ↔
    e.state = .retired ∧ ∃ r, e.retireTime = some r ∧ (r - now).toInt ≤ 0 := by
  unfold retireDue
  cases e.retireTime with
  | none => simp
  | some r => simp [reached, offsetFrom]

theorem markStale_key (c : Ctx) (e : Entry) : (markStale c e).origin = e.origin ∧ (markStale c e).point = e.point := by
  unfold markStale
  split <;> exact ⟨rfl, rfl⟩

theorem findEntry_scanView (c : Ctx) (v : List Entry) (o p : Nat) :
    findEntry (scanView c v) o p = (findEntry (v.filter fun e => !retireDue c.now e) o p).map (markStale c) :=
  findEntry_map (fun e _ => markStale_key c e) o p

/-- Settles O46: the scan is a filter and a change in place. -/
theorem minuteScanRemovesAndMarks : Obligations.MinuteScanRemovesAndMarks := by
  unfold Obligations.MinuteScanRemovesAndMarks
  intro s hlive hview
  have hordered := ((s.viewOk_iff).1 hview).2
  have hexec : exec .minuteScan s = .next s.scan := congrArg Host.Outcome.next (if_pos hlive)
  refine ⟨_, hexec, rfl, fun o p h => ?_, fun o p e h => ?_⟩
  · exact (findEntry_scanView s.ctx s.view o p).trans (congrArg _ (findEntry_filter_none _ h))
  · intro due unheard
    have hfind := findEntry_scanView s.ctx s.view o p
    have hkept : ¬ due → findEntry s.scan.view o p = some (markStale s.ctx e) := fun hdue =>
      hfind.trans (congrArg _ (findEntry_filter h (by simpa using mt (retireDue_iff s.now e).1 hdue)))
    refine ⟨fun hdue => ?_, fun hdue hunheard => ?_, fun hdue hheard => ?_⟩
    · have hleft : (!retireDue s.now e) = false := by simpa using (retireDue_iff s.now e).2 hdue
      exact hfind.trans (congrArg _ (findEntry_filter_out hordered h hleft))
    · exact (hkept hdue).trans (congrArg some (if_pos hunheard))
    · exact (hkept hdue).trans (congrArg some (if_neg hheard))

/-! ## SILENCE_CHECK (O47) -/

theorem silenceDue_iff (c : Ctx) (o : Nat) (r : RollRecord) : silenceDue c o r = true ↔
    r.newest ≠ none ∧ o ≠ c.number ∧ r.silent = false ∧ 0 < c.cfg.silence ∧
      60 * c.cfg.silence ≤ since c.now r.lastHeard := by
  simp only [silenceDue, Bool.and_eq_true, decide_eq_true_eq, Bool.not_eq_true', Option.isSome_iff_ne_none, and_assoc]

/-- The record of a station after its check, where its entry finds room (R119). -/
def checkedRecord (c : Ctx) (o : Nat) (r : RollRecord) : RollRecord :=
  if silenceDue c o r then { r with silent := true } else r

/-- The station's entry after its check, by the record and the entry held before it (R119). -/
def checkedEntry (c : Ctx) (o : Nat) (r : RollRecord) (held : Option Entry) : Option Entry :=
  if silenceDue c o r then some ((held.map (reopenSilent c)).getD (silentEntry c o)) else held

/-- What a check of the stations `l` leaves, where every creation finds room. -/
structure Checked (c : Ctx) (l : List Nat) (k t : County) : Prop where
  keeps : t = { k with roll := t.roll, view := t.view }
  record : ∀ o, rollGet t.roll o = if o ∈ l then checkedRecord c o (rollGet k.roll o) else rollGet k.roll o
  entry : ∀ o p, findEntry t.view o p =
    if o ∈ l ∧ p = stationPoint then checkedEntry c o (rollGet k.roll o) (findEntry k.view o p) else findEntry k.view o p
  length : t.view.length ≤ k.view.length + l.length

theorem reopenSilent_key (c : Ctx) (e : Entry) :
    (reopenSilent c e).origin = e.origin ∧ (reopenSilent c e).point = e.point := by
  unfold reopenSilent
  split <;> exact ⟨rfl, rfl⟩

theorem createEntry_of_room {e : Entry} {v : ViewSide} (h : v.view.length < viewCapacity) :
    createEntry c e v = ({ v with view := putEntry v.view e }, true) := if_pos h

/-- One station's check, with room in the view. -/
theorem County.checkSilence_checked {k : County} {o : Nat} (ho : 1 ≤ o ∧ o ≤ 240) (hroom : k.view.length < viewCapacity) :
    Checked c [o] k (k.checkSilence c o) := by
  cases hdue : silenceDue c o (rollGet k.roll o) with
  | false =>
    have hsame : k.checkSilence c o = k := if_neg (by rw [County.record, hdue]; nofun)
    rw [hsame]
    refine ⟨rfl, fun a => ?_, fun a p => ?_, Nat.le_succ _⟩
    · split
      · rename_i ha
        rw [List.mem_singleton.1 ha, checkedRecord, hdue]
        rfl
      · rfl
    · split
      · rename_i ha
        rw [List.mem_singleton.1 ha.1, checkedEntry, hdue]
        rfl
      · rfl
  | true =>
    have hrecord : ∀ a, rollGet (rollSet k.roll o { rollGet k.roll o with silent := true }) a =
        if a ∈ [o] then checkedRecord c a (rollGet k.roll a) else rollGet k.roll a := fun a => by
      split
      · rename_i ha
        rw [List.mem_singleton.1 ha, checkedRecord, hdue]
        exact rollGet_rollSet_self _ _ ho
      · rename_i ha
        exact rollGet_rollSet_ne _ _ (Ne.symm (mt List.mem_singleton.2 ha))
    cases hheld : findEntry k.view o stationPoint with
    | some e =>
      have hstep : k.checkSilence c o = { k with
          roll := rollSet k.roll o { rollGet k.roll o with silent := true }
          view := updateEntry k.view o stationPoint (reopenSilent c) } := by
        unfold County.checkSilence
        simp only [County.record, hdue, if_true, hheld]
        rfl
      rw [hstep]
      refine ⟨rfl, hrecord, fun a p => ?_, by simp⟩
      refine (findEntry_updateEntry _ _ _ _ (reopenSilent_key c) a p).trans ?_
      simp only [List.mem_singleton]
      split
      · rename_i ha
        rw [ha.1, ha.2, checkedEntry, hdue, hheld]
        rfl
      · rfl
    | none =>
      have hstep : k.checkSilence c o = { k with
          roll := rollSet k.roll o { rollGet k.roll o with silent := true }
          view := putEntry k.view (silentEntry c o) } := by
        unfold County.checkSilence
        simp only [County.record, hdue, if_true, hheld, createEntry_of_room hroom]
        rfl
      rw [hstep]
      refine ⟨rfl, hrecord, fun a p => ?_, putEntry_length_le _ _⟩
      simp only [List.mem_singleton]
      split
      · rename_i ha
        rw [ha.1, ha.2, checkedEntry, hdue, hheld]
        exact findEntry_putEntry_self k.view (silentEntry c o)
      · rename_i ha
        exact findEntry_putEntry_ne _ _ fun h => ha ⟨h.1.symm, h.2.symm⟩

/-- The checks of stations one after another, no station twice. -/
theorem County.checkSilences_checked {l : List Nat} : ∀ {k : County}, l.Nodup → (∀ o ∈ l, 1 ≤ o ∧ o ≤ 240) →
    k.view.length + l.length ≤ viewCapacity → Checked c l k (l.foldl (County.checkSilence c) k) := by
  induction l with
  | nil => exact fun _ _ _ => ⟨rfl, fun _ => (if_neg List.not_mem_nil).symm,
      fun _ _ => (if_neg fun h => List.not_mem_nil h.1).symm, Nat.le_refl _⟩
  | cons o l ih =>
    intro k hnodup hrange hroom
    rw [List.length_cons] at hroom
    obtain ⟨hnot, hnodup⟩ := List.nodup_cons.1 hnodup
    obtain ⟨hkeeps, hrecord, hentry, hlength⟩ :=
      County.checkSilence_checked (c := c) (hrange o List.mem_cons_self) (show k.view.length < viewCapacity by omega)
    rw [List.length_singleton] at hlength
    obtain ⟨hkeeps', hrecord', hentry', hlength'⟩ :=
      ih hnodup (fun a ha => hrange a (List.mem_cons_of_mem _ ha)) (k := k.checkSilence c o) (by omega)
    have hother : ∀ a ∈ l, rollGet (k.checkSilence c o).roll a = rollGet k.roll a := fun a ha =>
      (hrecord a).trans (if_neg fun h => by
        obtain rfl := List.mem_singleton.1 h
        exact hnot ha)
    have hotherEntry : ∀ a p, a ∈ l → findEntry (k.checkSilence c o).view a p = findEntry k.view a p := fun a p ha =>
      (hentry a p).trans (if_neg fun ⟨h, _⟩ => by
        obtain rfl := List.mem_singleton.1 h
        exact hnot ha)
    refine ⟨?_, fun a => ?_, fun a p => ?_, ?_⟩
    · rw [List.foldl_cons]
      generalize List.foldl (County.checkSilence c) (k.checkSilence c o) l = t at hkeeps'
      rw [hkeeps] at hkeeps'
      exact hkeeps'
    · rw [List.foldl_cons, hrecord']
      by_cases ha : a ∈ l
      · rw [if_pos ha, if_pos (List.mem_cons_of_mem _ ha), hother a ha]
      · rw [if_neg ha, hrecord]
        simp only [List.mem_cons, List.not_mem_nil, or_false, ha]
    · rw [List.foldl_cons, hentry']
      by_cases ha : a ∈ l
      · simp only [ha, List.mem_cons_of_mem, hother a ha, hotherEntry a p ha]
      · rw [if_neg fun h => ha h.1, hentry]
        simp only [List.mem_cons, List.not_mem_nil, or_false, ha]
    · rw [List.foldl_cons, List.length_cons]
      omega

theorem mem_stationNumbers (o : Nat) : o ∈ stationNumbers ↔ 1 ≤ o ∧ o ≤ 240 := by
  simp only [stationNumbers, List.mem_map, List.mem_range]
  exact ⟨fun ⟨a, ha, h⟩ => by omega, fun h => ⟨o - 1, by omega, by omega⟩⟩

theorem County.checkAllSilence_checked {k : County} (h : k.view.length ≤ 144) :
    Checked c stationNumbers k (k.checkAllSilence c) := by
  refine County.checkSilences_checked ?_ (fun o ho => (mem_stationNumbers o).1 ho) ?_
  · exact List.nodup_range.map fun a b h => Nat.succ.inj h
  · rw [stationNumbers, List.length_map, List.length_range]
    exact Nat.add_le_add_right h 240

/-- Settles O47: the checks of the 240 stations, each of which finds room. -/
theorem silenceCheckDeclares : Obligations.SilenceCheckDeclares := by
  unfold Obligations.SilenceCheckDeclares
  intro s hlive _ hroom
  have hexec : exec .silenceCheck s = .next s.silence := congrArg Host.Outcome.next (if_pos hlive)
  have hchecked := County.checkAllSilence_checked (c := s.ctx) hroom
  rw [State.silence] at hexec
  generalize s.toCounty.checkAllSilence s.ctx = k at hexec hchecked
  obtain ⟨hkeeps, hrecord, hentry, -⟩ := hchecked
  refine ⟨_, hexec, ?_, fun o p hp => (hentry o p).trans (if_neg fun h => hp h.2), fun o h1 h240 => ?_⟩
  · exact congrArg (fun n : County => State.settle { s with toCounty := n }) hkeeps
  · intro r due
    have hmem : o ∈ stationNumbers := (mem_stationNumbers o).2 ⟨h1, h240⟩
    have hrec : rollGet k.roll o = checkedRecord s.ctx o r := (hrecord o).trans (if_pos hmem)
    have hent : findEntry k.view o 255 = checkedEntry s.ctx o r (findEntry s.view o 255) :=
      (hentry o 255).trans (if_pos ⟨hmem, rfl⟩)
    refine ⟨fun hdue => ?_, fun hdue => ?_⟩
    · have hnot := mt (silenceDue_iff s.ctx o r).1 hdue
      exact ⟨hrec.trans (if_neg hnot), hent.trans (if_neg hnot)⟩
    · have his := (silenceDue_iff s.ctx o r).2 hdue
      refine ⟨hrec.trans (if_pos his), (hent.trans (if_pos his)).trans (congrArg some ?_)⟩
      cases findEntry s.view o 255 with
      | none => rfl
      | some e => rfl

/-! ## PRESENCE_TIME and REFRESH (O51) -/

theorem County.offers_queue (items : Entry → QItem) (l : List Entry) : ∀ k : County,
    ∃ q, l.foldl (fun k e => k.offer c (items e)) k = { k with toQueueSide := q } := by
  induction l with
  | nil => exact fun k => ⟨k.toQueueSide, rfl⟩
  | cons e l ih =>
    intro k
    obtain ⟨q, hq⟩ := ih (k.offer c (items e))
    exact ⟨q, hq⟩

/-- The news of an own entry as a REFRESH item gives it (R138, R139). -/
theorem Entry.item_of_standing {e : Entry} (h : e.state = .active ∨ e.state = .inhibited) (c : Ctx) :
    e.item c = ⟨e.origin, e.point, e.stamp.getD ⟨0, 0⟩, e.kind, e.severity,
      if e.state = .active then .active else .inhibited, e.occurrences, e.age c.now, c.now, c.cfg.hopBudget, e.ack,
      e.affected⟩ := by
  unfold Entry.item
  rcases h with h | h
  · rw [h]
    rfl
  · rw [h]
    rfl

/-- Settles O51: the definitions, the news of the entries written out. -/
theorem presenceAndRefreshOffer : Obligations.PresenceAndRefreshOffer := by
  unfold Obligations.PresenceAndRefreshOffer
  intro s hmode
  have hrefresh : exec .refresh s = .next s.refreshTime := congrArg Host.Outcome.next (if_pos hmode)
  refine ⟨congrArg Host.Outcome.next (if_pos hmode), fun hoff => ?_, fun hon => ?_, ?_⟩
  · rw [hrefresh, State.refreshTime, County.refreshOwn, if_pos (show s.ctx.cfg.refresh = 0 from hoff)]
    rfl
  · rw [hrefresh, State.refreshTime, County.refreshOwn, if_neg (show ¬ s.ctx.cfg.refresh = 0 from Nat.ne_of_gt hon)]
    refine congrArg (fun k : County => Host.Outcome.next (State.settle { s with toCounty := k })) ?_
    refine List.foldl_ext _ _ _ fun k e he => ?_
    have hstate : e.state = .active ∨ e.state = .inhibited := by
      simpa [and_assoc] using (Bool.and_eq_true_iff.1 (List.mem_filter.1 he).2).2
    rw [Entry.item_of_standing hstate]
    rfl
  · rw [hrefresh, State.refreshTime, County.refreshOwn]
    split
    · exact ⟨s.toQueueSide, rfl⟩
    · obtain ⟨q, hq⟩ := County.offers_queue (c := s.ctx) (fun e => ⟨.fault (e.item s.ctx), e.severity, .refresh, 0, 0⟩)
        (s.view.filter fun e => e.own && (e.state == .active || e.state == .inhibited)) s.toCounty
      exact ⟨q, congrArg (fun k : County => Host.Outcome.next (State.settle { s with toCounty := k })) hq⟩

/-! ## The epoch advance (O48) -/

theorem countTakenNewer_iff_dist (a b : Half) : countTakenNewer a b = true ↔ 1 ≤ (a - b).toNat ∧ (a - b).toNat ≤ 32768 :=
  decide_eq_true_iff

theorem testCondensed_eq (c : Ctx) (q : QueueSide) : testCondensed c q = { q with condensed := (testCondensed c q).condensed } := by
  unfold testCondensed testAt
  split
  · rfl
  · split <;> rfl

theorem resyncPass_unmarked (c : Ctx) (roll : Vector RollRecord 240) (view : List Entry) {q : QueueSide}
    (h : ∀ p, tget q.unsent p false = false) : resyncPass c roll view q = q := by
  have hnone : (view.filter fun e => e.own && tget q.unsent e.point false) = [] :=
    List.filter_eq_nil_iff.2 fun e _ => by simp [h]
  unfold resyncPass
  rw [hnone]
  rfl

/-- With no mark set, what follows a removal is the test of condensed mode alone (R132, R135). -/
theorem afterChange_unmarked {roll : Vector RollRecord 240} {view : List Entry} {q r : QueueSide}
    (h : ∀ p, tget r.unsent p false = false) : afterChange c roll view q r = testCondensed c r := by
  have hsame : ∀ p, tget (testCondensed c r).unsent p false = false := by
    rw [testCondensed_eq]
    exact h
  unfold afterChange
  simp only [resyncPass_unmarked c roll view hsame, ite_self]

theorem closeEntry_key (c : Ctx) (o : Nat) (start : Half) (e : Entry) :
    (closeEntry c o start e).origin = e.origin ∧ (closeEntry c o start e).point = e.point := by
  unfold closeEntry
  split
  · exact ⟨rfl, rfl⟩
  · split
    · split
      · split <;> exact ⟨rfl, rfl⟩
      · exact ⟨rfl, rfl⟩
      · exact ⟨rfl, rfl⟩
      · exact ⟨rfl, rfl⟩
    · exact ⟨rfl, rfl⟩

/-- An entry of another origin, a local one or one of no older start count stands (R114). -/
theorem closeEntry_stands {o : Nat} {start : Half} {e : Entry}
    (h : ¬ (e.origin = o ∧ e.localOnly = false ∧ ∃ st, e.stamp = some st ∧ countTakenNewer start st.start = true)) :
    closeEntry c o start e = e := by
  unfold closeEntry
  split
  · rfl
  · rename_i st hst
    exact if_neg fun hc => h ⟨hc.1, hc.2.1, st, hst, hc.2.2⟩

/-- Table 7.2. -/
theorem closeEntry_closes {o : Nat} {start : Half} {e : Entry} {st : Stamp} (ho : e.origin = o) (hl : e.localOnly = false)
    (hst : e.stamp = some st) (hold : countTakenNewer start st.start = true) :
    closeEntry c o start e = match e.state with
      | .active =>
        if e.ack.isSome then
          { e with state := .retired, stale := false, ageBase := 0, baseTime := c.now,
                   retireTime := some (c.cfg.retireAt c.now) }
        else { e with state := .cleared, stale := false, endedByRestart := true, ageBase := 0, baseTime := c.now }
      | .inhibited =>
        { e with state := .retired, stale := false, ageBase := 0, baseTime := c.now,
                 retireTime := some (c.cfg.retireAt c.now) }
      | .cleared => e
      | .retired => e := by
  unfold closeEntry
  rw [hst]
  exact if_pos ⟨ho, hl, hold⟩

/-- Settles O48: the record, the entries one by one, the purge without a resync pass. -/
theorem epochAdvanceClosesAndPurges : Obligations.EpochAdvanceClosesAndPurges := by
  unfold Obligations.EpochAdvanceClosesAndPurges
  intro c o start k h1 h240 hmarks t older
  have hview : t.view = k.view.map (closeEntry c o start) := rfl
  have hroll : t.roll = rollSet k.roll o { rollGet k.roll o with newest := some start } := rfl
  have hfind : ∀ a p, findEntry t.view a p = (findEntry k.view a p).map (closeEntry c o start) := fun a p =>
    findEntry_map (fun e _ => closeEntry_key c o start e) a p
  have hqueue : t.toQueueSide = testCondensed c { k.toQueueSide with
      queue := k.queue.filter fun x => !(x.item.origin == o && countTakenNewer start x.item.start) } :=
    afterChange_unmarked hmarks
  refine ⟨rfl, ?_, fun p hp => ?_, ?_, fun a p h => ?_, fun a p e h => ?_⟩
  · rw [hroll]
    exact rollGet_rollSet_self _ _ ⟨h1, h240⟩
  · rw [hroll]
    exact rollGet_rollSet_ne _ _ hp.symm
  · have hcondensed := congrArg QueueSide.condensed hqueue
    rw [hcondensed]
    exact hqueue.trans (testCondensed_eq _ _)
  · rw [hfind, h]
    rfl
  · intro closes closed hold
    have hkey := (findEntry_mem h).2.1
    rw [hfind, h]
    refine ⟨fun hstands => ?_, fun hcloses hstate => ?_, fun hcloses hactive hack => ?_⟩
    · refine congrArg some ?_
      by_cases hc : closes
      · obtain ⟨ha, hl, st, hst, hold⟩ := hc
        rw [closeEntry_closes (hkey.trans ha) hl hst (decide_eq_true hold)]
        rcases hstands with hnot | hstate | hstate
        · exact absurd ⟨ha, hl, st, hst, hold⟩ hnot
        · rw [hstate]
        · rw [hstate]
      · refine closeEntry_stands fun ⟨ho, hl, st, hst, hold⟩ => hc ⟨hkey.symm.trans ho, hl, st, hst, ?_⟩
        exact (countTakenNewer_iff_dist _ _).1 hold
    · obtain ⟨ha, hl, st, hst, hold⟩ := hcloses
      refine congrArg some ((closeEntry_closes (hkey.trans ha) hl hst (decide_eq_true hold)).trans ?_)
      rcases hstate with ⟨hactive, hack⟩ | hinhibited
      · simp only [hactive, Option.isSome_iff_ne_none.2 hack, if_true]
        rfl
      · rw [hinhibited]
        rfl
    · obtain ⟨ha, hl, st, hst, hold⟩ := hcloses
      refine congrArg some ((closeEntry_closes (hkey.trans ha) hl hst (decide_eq_true hold)).trans ?_)
      have hnoAck : ¬ e.ack.isSome = true := by rw [hack]; nofun
      simp only [hactive, if_neg hnoAck]
      rfl

end Sys2Proof.Machine

/-! The Fault View: the merge of heard news (O40, O41) and creation in a full view (O42). -/

namespace Sys2Proof.Machine

variable {c : Ctx} {v : ViewSide}

/-! ## One key of the view changed -/

/-- A change in place that keeps the key of the entries it meets changes what is found for that key alone. -/
theorem findEntry_update_of_key {v : List Entry} {o p : Nat} {f : Entry → Entry}
    (hf : ∀ e, e.origin = o → e.point = p → (f e).origin = o ∧ (f e).point = p) {e : Entry} (h : findEntry v o p = some e) :
    findEntry (updateEntry v o p f) o p = some (f e) ∧
      ∀ a b, ¬ (a = o ∧ b = p) → findEntry (updateEntry v o p f) a b = findEntry v a b := by
  have hmap : ∀ a b, findEntry (updateEntry v o p f) a b =
      (findEntry v a b).map fun x => if x.hasKey o p then f x else x := fun a b => by
    refine findEntry_map (fun x _ => ?_) a b
    split
    · rename_i hkey
      obtain ⟨ho, hp⟩ := (x.hasKey_iff o p).1 hkey
      exact ⟨(hf x ho hp).1.trans ho.symm, (hf x ho hp).2.trans hp.symm⟩
    · exact ⟨rfl, rfl⟩
  refine ⟨?_, fun a b hne => ?_⟩
  · obtain ⟨-, ho, hp⟩ := findEntry_mem h
    rw [hmap, h]
    exact congrArg some (if_pos ((e.hasKey_iff o p).2 ⟨ho, hp⟩))
  · rw [hmap]
    cases hx : findEntry v a b with
    | none => rfl
    | some x =>
      obtain ⟨-, ho, hp⟩ := findEntry_mem hx
      exact congrArg some (if_neg fun hkey => hne ⟨ho.symm.trans ((x.hasKey_iff o p).1 hkey).1,
        hp.symm.trans ((x.hasKey_iff o p).1 hkey).2⟩)

/-- Two changes that agree on the entry of the key make the same view. -/
theorem updateEntry_congr {v : List Entry} {o p : Nat} {f g : Entry → Entry} {e : Entry} (hv : viewOrdered v = true)
    (h : findEntry v o p = some e) (hfg : f e = g e) : updateEntry v o p f = updateEntry v o p g := by
  refine List.map_congr_left fun x hx => ?_
  split
  · rename_i hkey
    obtain ⟨ho, hp⟩ := (x.hasKey_iff o p).1 hkey
    have hfound := findEntry_of_mem hv hx
    rw [ho, hp, h] at hfound
    obtain rfl := Option.some.inj hfound
    exact hfg
  · rfl

/-- A merge has left the entry `e` for the key and changed no other entry and nothing but the entries. -/
structure Merged (v w : ViewSide) (o p : Nat) (e : Entry) : Prop where
  keeps : w = { v with view := w.view }
  found : findEntry w.view o p = some e
  others : ∀ a b, ¬ (a = o ∧ b = p) → findEntry w.view a b = findEntry v.view a b

theorem Merged.put (v : ViewSide) (e : Entry) : Merged v { v with view := putEntry v.view e } e.origin e.point e :=
  ⟨rfl, findEntry_putEntry_self v.view e,
    fun _ _ hne => findEntry_putEntry_ne v.view e fun h => hne ⟨h.1.symm, h.2.symm⟩⟩

theorem Merged.update {o p : Nat} {f : Entry → Entry} {e : Entry} (h : findEntry v.view o p = some e)
    (hf : ∀ x, x.origin = o → x.point = p → (f x).origin = o ∧ (f x).point = p) :
    Merged v { v with view := updateEntry v.view o p f } o p (f e) :=
  ⟨rfl, (findEntry_update_of_key hf h).1, (findEntry_update_of_key hf h).2⟩

/-! ## The merge of a FAULT by the entry held (O40) -/

section Fault

variable {compact : Bool} {f : FaultNews} {e : Entry} {st : Stamp}

theorem mergeFault_tombstone (h : findEntry v.view f.origin f.point = none) (hs : f.state = .cleared) :
    mergeFault c compact f v =
      (if v.view.length < viewCapacity then { v with view := putEntry v.view (newEntry c compact f) } else v, .created) := by
  simp only [mergeFault, h, hs]

theorem mergeFault_creates (h : findEntry v.view f.origin f.point = none) (hs : f.state ≠ .cleared) :
    mergeFault c compact f v = ((createEntry c (newEntry c compact f) v).1, .created) := by
  unfold mergeFault
  rw [h]
  cases hf : f.state with
  | active => rfl
  | inhibited => rfl
  | cleared => exact absurd hf hs

/-- A merge where nothing is held stores the new entry if the view has room (R92, R93). -/
theorem mergeFault_of_room (h : findEntry v.view f.origin f.point = none) (hroom : v.view.length < viewCapacity) :
    mergeFault c compact f v = ({ v with view := putEntry v.view (newEntry c compact f) }, .created) := by
  by_cases hs : f.state = .cleared
  · rw [mergeFault_tombstone h hs, if_pos hroom]
  · rw [mergeFault_creates h hs, createEntry_of_room hroom]

theorem mergeFault_outdated (h : findEntry v.view f.origin f.point = some e) (hst : e.stamp = some st) (hne : st ≠ f.stamp)
    (hnew : f.stamp.takenNewer st = false) : mergeFault c compact f v = (v, .outdated) := by
  simp [mergeFault, h, hst, hne, hnew]

theorem mergeFault_newer (h : findEntry v.view f.origin f.point = some e) (hst : e.stamp = some st) (hne : st ≠ f.stamp)
    (hnew : f.stamp.takenNewer st = true) : mergeFault c compact f v =
      ({ v with view := updateEntry v.view f.origin f.point (renewedEntry c compact f) }, .newer) := by
  simp [mergeFault, h, hst, hne, hnew]

theorem mergeFault_again (h : findEntry v.view f.origin f.point = some e) (hst : e.stamp = some f.stamp) :
    mergeFault c compact f v = ({ v with view := updateEntry v.view f.origin f.point fun _ => (sameStampEntry c f e).1 },
      (sameStampEntry c f e).2) := by
  simp [mergeFault, h, hst]

theorem renewedEntry_key (c : Ctx) (compact : Bool) (f : FaultNews) (e : Entry) :
    (renewedEntry c compact f e).origin = e.origin ∧ (renewedEntry c compact f e).point = e.point := by
  unfold renewedEntry
  cases f.state <;> exact ⟨rfl, rfl⟩

theorem Merged.renewed (h : findEntry v.view f.origin f.point = some e) :
    Merged v { v with view := updateEntry v.view f.origin f.point (renewedEntry c compact f) } f.origin f.point
      (renewedEntry c compact f e) :=
  Merged.update h fun x ho hp => by
    obtain ⟨horigin, hpoint⟩ := renewedEntry_key c compact f x
    exact ⟨horigin.trans ho, hpoint.trans hp⟩

theorem sameStampEntry_ack {a : Ack} (hf : f.ack = some a) (he : e.ack = none) : sameStampEntry c f e =
    (({ e with lastHeard := c.now, stale := false } : Entry).acknowledged a (c.cfg.retireAt c.now), .ackApplied) := by
  simp only [sameStampEntry, hf, he]

theorem sameStampEntry_plain (h : f.ack = none ∨ e.ack ≠ none) : sameStampEntry c f e =
    ({ e with lastHeard := c.now, stale := false }, if renewalDue c e then .renewal else .duplicate) := by
  unfold sameStampEntry
  split
  · rename_i hf he
    rcases h with h | h
    · rw [hf] at h
      nomatch h
    · exact absurd he h
  · rfl

theorem sameStampEntry_key (c : Ctx) (f : FaultNews) (e : Entry) :
    (sameStampEntry c f e).1.origin = e.origin ∧ (sameStampEntry c f e).1.point = e.point := by
  unfold sameStampEntry
  split
  · simp only [Entry.acknowledged_eq, and_self]
  · exact ⟨rfl, rfl⟩

theorem Merged.again (h : findEntry v.view f.origin f.point = some e) :
    Merged v { v with view := updateEntry v.view f.origin f.point fun _ => (sameStampEntry c f e).1 } f.origin f.point
      (sameStampEntry c f e).1 := by
  obtain ⟨-, ho, hp⟩ := findEntry_mem h
  refine Merged.update h fun _ _ _ => ?_
  obtain ⟨horigin, hpoint⟩ := sameStampEntry_key c f e
  exact ⟨horigin.trans ho, hpoint.trans hp⟩

theorem renewalDue_iff (c : Ctx) (e : Entry) : renewalDue c e = true ↔
    0 < c.cfg.refresh ∧ 30 * c.cfg.refresh ≤ since c.now e.lastHeard := decide_eq_true_iff

/-- The entry after a newer CLEARED item, where the item carries an ack part or the state held retires it (Table 6.5). -/
theorem renewedEntry_retires (hs : f.state = .cleared) {ack : Option Ack} (hc : clearedBy f e = (.retired, ack)) :
    renewedEntry c compact f e = { e with
      kind := f.kind, severity := f.severity, stamp := some f.stamp,
      occurrences := mergedOccurrences compact f (some e), affected := storedAffected f.kind f.affected,
      ageBase := f.age, baseTime := c.now, lastHeard := c.now, stale := false, endedByRestart := false
      state := .retired, ack := ack, retireTime := some (c.cfg.retireAt c.now) } := by
  unfold renewedEntry
  rw [hs, hc]
  rfl

theorem renewedEntry_clears (hs : f.state = .cleared) (hc : clearedBy f e = (.cleared, none)) :
    renewedEntry c compact f e = { e with
      kind := f.kind, severity := f.severity, stamp := some f.stamp,
      occurrences := mergedOccurrences compact f (some e), affected := storedAffected f.kind f.affected,
      ageBase := f.age, baseTime := c.now, lastHeard := c.now, stale := false, endedByRestart := false
      state := .cleared, ack := none, retireTime := none } := by
  unfold renewedEntry
  rw [hs, hc]
  rfl

theorem clearedBy_ack (e : Entry) (hf : f.ack ≠ none) : clearedBy f e = (.retired, f.ack) := by
  unfold clearedBy
  cases ha : f.ack with
  | some a => rfl
  | none => exact absurd ha hf

theorem clearedBy_retired (hf : f.ack = none)
    (he : e.state = .active ∧ e.ack ≠ none ∨ e.state = .inhibited ∨ e.state = .retired) :
    clearedBy f e = (.retired, e.ack) := by
  unfold clearedBy
  rw [hf]
  rcases he with ⟨he, hack⟩ | he | he
  · rw [he]
    exact if_pos (Option.isSome_iff_ne_none.2 hack)
  · rw [he]
  · rw [he]

theorem clearedBy_cleared (hf : f.ack = none) (he : e.state = .active ∧ e.ack = none ∨ e.state = .cleared) :
    clearedBy f e = (.cleared, none) := by
  unfold clearedBy
  rw [hf]
  rcases he with ⟨he, hack⟩ | he
  · rw [he, hack]
    rfl
  · rw [he]

end Fault

/-- Settles O40: `mergeFault` case by case. -/
theorem mergeFaultByStamp : Obligations.MergeFaultByStamp := by
  unfold Obligations.MergeFaultByStamp
  intro c f v r hold affected fresh holds
  have hholds : ∀ {w : ViewSide} {out : MergeOutcome} {e : Entry}, r = (w, out) → Merged v w f.origin f.point e → holds e :=
    fun {w out e} hr h => by
      have hw : r.1 = w := congrArg Prod.fst hr
      show r.1 = { v with view := r.1.view } ∧ findEntry r.1.view f.origin f.point = some e ∧
        ∀ o p, ¬ (o = f.origin ∧ p = f.point) → findEntry r.1.view o p = findEntry v.view o p
      rw [hw]
      exact ⟨h.keeps, h.found, h.others⟩
  refine ⟨fun hnone => ⟨?_, fun hroom => ?_, fun hfull hs => ?_, fun hfull hs => ?_, fun hfull hs => ?_⟩,
    fun e st hfound hst => ?_⟩
  · by_cases hs : f.state = .cleared
    · exact congrArg Prod.snd (mergeFault_tombstone hnone hs)
    · exact congrArg Prod.snd (mergeFault_creates hnone hs)
  · have hnew : newEntry c false f = (match f.state with
        | .active => fresh .active none
        | .inhibited => fresh .inhibited none
        | .cleared => fresh .retired (some hold)) := by
      unfold newEntry
      cases f.state <;> rfl
    have hmerged := hholds (mergeFault_of_room (compact := false) hnone hroom) (Merged.put v (newEntry c false f))
    rw [hnew] at hmerged
    exact hmerged
  · exact (congrArg Prod.fst (mergeFault_tombstone (compact := false) hnone hs)).trans (if_neg (Nat.not_lt.2 hfull))
  · refine (congrArg Prod.fst (mergeFault_creates (compact := false) hnone (by rw [hs]; nofun))).trans ?_
    rw [newEntry, hs]
    rfl
  · refine (congrArg Prod.fst (mergeFault_creates (compact := false) hnone (by rw [hs]; nofun))).trans ?_
    rw [newEntry, hs]
    rfl
  · intro renewed again
    refine ⟨fun hne hold => mergeFault_outdated hfound hst hne hold, fun hne hnew => ?_, fun hsame => ?_⟩
    · have hr : r = _ := mergeFault_newer (c := c) (compact := false) hfound hst hne hnew
      have hmerged := hholds hr (Merged.renewed hfound)
      refine ⟨congrArg Prod.snd hr, fun hs => ?_, fun hs => ?_, fun hs hack => ?_, fun hs hack => ⟨fun he => ?_, fun he => ?_⟩⟩
      · rw [renewedEntry, hs] at hmerged
        exact hmerged
      · rw [renewedEntry, hs] at hmerged
        exact hmerged
      · rw [renewedEntry_retires hs (clearedBy_ack e hack)] at hmerged
        exact hmerged
      · rw [renewedEntry_retires hs (clearedBy_retired hack he)] at hmerged
        exact hmerged
      · rw [renewedEntry_clears hs (clearedBy_cleared hack he)] at hmerged
        exact hmerged
    · have hr : r = _ := mergeFault_again (c := c) (compact := false) hfound (hst.trans (congrArg some hsame))
      have hmerged := hholds hr (Merged.again hfound)
      refine ⟨fun a hf he => ?_, fun h => ?_⟩
      · rw [sameStampEntry_ack hf he] at hr hmerged
        rw [Entry.acknowledged_if] at hmerged
        exact ⟨congrArg Prod.snd hr, hmerged⟩
      · rw [sameStampEntry_plain h] at hr hmerged
        refine ⟨hmerged, fun hon hdue => ?_, fun hnot => ?_⟩
        · exact (congrArg Prod.snd hr).trans (if_pos ((renewalDue_iff c e).2 ⟨hon, hdue⟩))
        · refine (congrArg Prod.snd hr).trans (if_neg fun hdue => ?_)
          obtain ⟨hon, hdue⟩ := (renewalDue_iff c e).1 hdue
          omega

/-! ## The merge of an ACK, and COMPACT points (O41) -/

section AckAndPoint

variable {a : AckNews} {f : FaultNews} {e : Entry} {st : Stamp}

theorem mergeAckItem_none (h : findEntry v.view a.origin a.point = none) : mergeAckItem c a v = (v, .unplaced) := by
  simp only [mergeAckItem, h]

theorem mergeAckItem_other (h : findEntry v.view a.origin a.point = some e) (hst : e.stamp = some st) (hne : st ≠ a.stamp) :
    mergeAckItem c a v = (v, if a.stamp.takenNewer st then .unplaced else .outdated) := by
  simp only [mergeAckItem, h, hst, Option.getD_some, if_neg hne]
  split <;> rfl

theorem mergeAckItem_held (h : findEntry v.view a.origin a.point = some e) (hst : e.stamp = some a.stamp)
    (hack : e.ack ≠ none) : mergeAckItem c a v = (v, .duplicate) := by
  simp only [mergeAckItem, h, hst, Option.getD_some, if_true, if_pos (Option.isSome_iff_ne_none.2 hack)]

theorem mergeAckItem_applies (h : findEntry v.view a.origin a.point = some e) (hst : e.stamp = some a.stamp)
    (hack : e.ack = none) : mergeAckItem c a v =
      ({ v with view := updateEntry v.view a.origin a.point fun e => e.acknowledged a.ack (c.cfg.retireAt c.now) },
        .ackApplied) := by
  have hnot : ¬ e.ack.isSome = true := by rw [hack]; nofun
  simp only [mergeAckItem, h, hst, Option.getD_some, if_true, if_neg hnot]

/-- The occurrences a COMPACT point gives, by what the view holds (R98). -/
def pointOccurrences (v : List Entry) (f : FaultNews) : Nat :=
  match findEntry v f.origin f.point with
  | none => if f.state = .active then 1 else 0
  | some e => if f.state = .active ∧ e.state ≠ .active then min 255 (e.occurrences + 1) else e.occurrences

theorem mergedOccurrences_none (f : FaultNews) : mergedOccurrences true f none = if f.state = .active then 1 else 0 := by
  unfold mergedOccurrences
  cases f.state <;> rfl

theorem mergedOccurrences_some (f : FaultNews) (e : Entry) : mergedOccurrences true f (some e) =
    if f.state = .active ∧ e.state ≠ .active then min 255 (e.occurrences + 1) else e.occurrences := by
  unfold mergedOccurrences
  cases f.state with
  | active => by_cases h : e.state = .active <;> simp [h]
  | cleared => rfl
  | inhibited => rfl

/-- A COMPACT point merges as the FAULT of those occurrences (R98). -/
theorem mergeFault_compact (hv : viewOrdered v.view = true) : mergeFault c true f v =
    mergeFault c false { f with occurrences := pointOccurrences v.view f } v := by
  cases h : findEntry v.view f.origin f.point with
  | none =>
    have hnew : newEntry c true f = newEntry c false { f with occurrences := pointOccurrences v.view f } := by
      have hocc : mergedOccurrences true f none = pointOccurrences v.view f := by
        rw [mergedOccurrences_none, pointOccurrences, h]
      unfold newEntry
      rw [hocc]
      rfl
    by_cases hs : f.state = .cleared
    · rw [mergeFault_tombstone h hs, hnew]
      exact (mergeFault_tombstone (f := { f with occurrences := pointOccurrences v.view f }) h hs).symm
    · rw [mergeFault_creates h hs, hnew]
      exact (mergeFault_creates (f := { f with occurrences := pointOccurrences v.view f }) h hs).symm
  | some e =>
    have hrenewed : renewedEntry c true f e = renewedEntry c false { f with occurrences := pointOccurrences v.view f } e := by
      have hocc : mergedOccurrences true f (some e) = pointOccurrences v.view f := by
        rw [mergedOccurrences_some, pointOccurrences, h]
      unfold renewedEntry
      rw [hocc]
      rfl
    unfold mergeFault
    simp only [h, updateEntry_congr hv h hrenewed]
    rfl

end AckAndPoint

/-- Settles O41: `mergeAckItem` case by case, and the merge of a COMPACT point as a FAULT. -/
theorem mergeAckAndCompactPoint : Obligations.MergeAckAndCompactPoint := by
  unfold Obligations.MergeAckAndCompactPoint
  refine ⟨fun c a v => ?_, fun c f v hv _ _ => mergeFault_compact hv⟩
  intro r
  refine ⟨fun h => mergeAckItem_none h, fun e st h hst => ⟨fun hne hnew => ?_, fun hne hold => ?_, fun hsame hack => ?_,
    fun hsame hack => ?_⟩⟩
  · exact (mergeAckItem_other h hst hne).trans (by rw [hnew]; rfl)
  · exact (mergeAckItem_other h hst hne).trans (by rw [hold]; rfl)
  · exact mergeAckItem_held h (hst.trans (congrArg some hsame)) hack
  · have hr : r = _ := mergeAckItem_applies (c := c) h (hst.trans (congrArg some hsame)) hack
    have hmerged := Merged.update (f := fun e => e.acknowledged a.ack (c.cfg.retireAt c.now)) h fun x ho hp => by
      rw [Entry.acknowledged_eq]
      exact ⟨ho, hp⟩
    obtain ⟨hkeeps, hfound, hothers⟩ := hmerged
    rw [Entry.acknowledged_if] at hfound
    have hw := congrArg Prod.fst hr
    refine ⟨congrArg Prod.snd hr, ?_, ?_, ?_⟩
    · rw [hw]
    · rw [hw]
      exact hfound
    · rw [hw]
      exact hothers

/-! ## Creation in a full view (O42) -/

/-- The order of the first tier as a relation (R105). -/
def RetiredLt (now : Time) (a b : Entry) : Prop :=
  offsetFrom now (a.retireTime.getD now) < offsetFrom now (b.retireTime.getD now) ∨
    offsetFrom now (a.retireTime.getD now) = offsetFrom now (b.retireTime.getD now) ∧
      (b.origin < a.origin ∨ b.origin = a.origin ∧ b.point < a.point)

/-- STALE entries go first. -/
def Entry.staleRank (e : Entry) : Nat := if e.stale then 0 else 1

/-- The order of the second tier as a relation (Table 6.8). -/
def EvictLt (now : Time) (a b : Entry) : Prop :=
  a.severity < b.severity ∨ a.severity = b.severity ∧
    (a.staleRank < b.staleRank ∨ a.staleRank = b.staleRank ∧
      (a.state.evictionRank < b.state.evictionRank ∨ a.state.evictionRank = b.state.evictionRank ∧
        (a.age now < b.age now ∨ a.age now = b.age now ∧
          (b.origin < a.origin ∨ b.origin = a.origin ∧ b.point < a.point))))

theorem Entry.staleRank_lt (a b : Entry) : a.staleRank < b.staleRank ↔ a.stale = true ∧ b.stale = false := by
  cases ha : a.stale <;> cases hb : b.stale <;> simp [Entry.staleRank, ha, hb]

theorem Entry.staleRank_eq (a b : Entry) : a.staleRank = b.staleRank ↔ a.stale = b.stale := by
  cases ha : a.stale <;> cases hb : b.stale <;> simp [Entry.staleRank, ha, hb]

theorem retiredBefore_iff (now : Time) (a b : Entry) : retiredBefore now a b = true ↔ RetiredLt now a b := by
  simp only [retiredBefore, RetiredLt]
  split
  · rw [decide_eq_true_iff]
    omega
  · rw [keyLt_iff]
    omega

theorem evictBefore_iff (now : Time) (a b : Entry) : evictBefore now a b = true ↔ EvictLt now a b := by
  simp only [evictBefore, EvictLt, Entry.staleRank_lt, Entry.staleRank_eq]
  by_cases hseverity : a.severity = b.severity
  · by_cases hstale : a.stale = b.stale
    · by_cases hrank : a.state.evictionRank = b.state.evictionRank
      · by_cases hage : a.age now = b.age now
        · simp [hseverity, hstale, hrank, hage, keyLt_iff]
        · simp [hseverity, hstale, hrank, hage]
      · simp [hseverity, hstale, hrank]
    · cases ha : a.stale <;> cases hb : b.stale <;> simp_all
  · simp [hseverity]

/-- The entry that `firstBy` picks from a list in key order stands before every other, where the order is transitive and
orders any two keys. -/
theorem firstBy_least {before : Entry → Entry → Bool}
    (htrans : ∀ x y z, before x y = true → before y z = true → before x z = true)
    (htotal : ∀ x y, keyLt x.origin x.point y.origin y.point = true → before x y = true ∨ before y x = true)
    {l : List Entry} : ∀ {x : Entry}, l.Pairwise (fun a b => keyLt a.origin a.point b.origin b.point = true) →
      firstBy before l = some x → ∀ y ∈ l, y ≠ x → before x y = true := by
  induction l with
  | nil => exact fun _ _ y hy => absurd hy List.not_mem_nil
  | cons e l ih =>
    intro x hl hx y hy hne
    obtain ⟨he, hl⟩ := List.pairwise_cons.1 hl
    rw [firstBy] at hx
    cases hz : firstBy before l with
    | none =>
      rw [hz] at hx
      obtain rfl := Option.some.inj hx
      have hempty : l = [] := by
        by_contra hl
        exact firstBy_isSome hl hz
      rw [hempty] at hy
      exact absurd (List.mem_singleton.1 hy) hne
    | some z =>
      rw [hz] at hx
      have hleast := ih hl hz
      by_cases hbefore : before z e = true
      · obtain rfl : z = x := by simpa [hbefore] using hx
        rcases List.mem_cons.1 hy with rfl | hy
        · exact hbefore
        · exact hleast y hy hne
      · obtain rfl : e = x := by simpa [hbefore] using hx
        have hez : before e z = true := (htotal e z (he z (firstBy_mem hz))).resolve_right hbefore
        rcases List.mem_cons.1 hy with rfl | hy
        · exact absurd rfl hne
        · by_cases hyz : y = z
          · rw [hyz]
            exact hez
          · exact htrans e z y hez (hleast y hy hyz)

theorem RetiredLt.trans {now : Time} {a b x : Entry} (h : RetiredLt now a b) (h' : RetiredLt now b x) : RetiredLt now a x := by
  simp only [RetiredLt] at h h' ⊢
  omega

theorem RetiredLt.total {now : Time} {a b : Entry} (h : keyLt a.origin a.point b.origin b.point = true) :
    RetiredLt now a b ∨ RetiredLt now b a := by
  simp only [RetiredLt, keyLt_iff] at h ⊢
  omega

theorem EvictLt.trans {now : Time} {a b x : Entry} (h : EvictLt now a b) (h' : EvictLt now b x) : EvictLt now a x := by
  simp only [EvictLt] at h h' ⊢
  omega

theorem EvictLt.total {now : Time} {a b : Entry} (h : keyLt a.origin a.point b.origin b.point = true) :
    EvictLt now a b ∨ EvictLt now b a := by
  simp only [EvictLt, keyLt_iff] at h ⊢
  omega

theorem EvictLt.spelled {now : Time} {a b : Entry} (h : EvictLt now a b) :
    a.severity < b.severity ∨ a.severity = b.severity ∧
      (a.stale = true ∧ b.stale = false ∨ a.stale = b.stale ∧
        (a.state.evictionRank < b.state.evictionRank ∨ a.state.evictionRank = b.state.evictionRank ∧
          (a.age now < b.age now ∨ a.age now = b.age now ∧
            (b.origin < a.origin ∨ b.origin = a.origin ∧ b.point < a.point)))) := by
  simpa only [EvictLt, Entry.staleRank_lt, Entry.staleRank_eq] using h

theorem evictionChoice_eq (now : Time) (v : List Entry) (limit : Option Nat) : evictionChoice now v limit =
    (firstBy (retiredBefore now) ((v.filter fun e => !e.own).filter fun e => e.state == .retired)).or
      (firstBy (evictBefore now) ((v.filter fun e => !e.own).filter fun e =>
        match limit with
        | none => true
        | some s => decide (e.severity < s))) := by
  unfold evictionChoice
  cases hfirst : firstBy (retiredBefore now) ((v.filter fun e => !e.own).filter fun e => e.state == .retired) with
  | none =>
    simp only [hfirst]
    rfl
  | some x => simp only [hfirst, Option.some_or]

theorem firstBy_nil_of_empty {before : Entry → Entry → Bool} {l : List Entry} (h : l = []) : firstBy before l = none := by
  rw [h]
  rfl

/-- Settles O42: the tier that has an entry gives the one that stands before its others. -/
theorem fullViewEvictsOrRefuses : Obligations.FullViewEvictsOrRefuses := by
  unfold Obligations.FullViewEvictsOrRefuses
  intro c e v hfull hv _ candidates retired lower replaced time keyAbove rank
  have hlower : lower = candidates.filter fun x =>
      match (if e.own then none else some e.severity : Option Nat) with
      | none => true
      | some s => decide (x.severity < s) := by
    refine List.filter_congr fun x _ => ?_
    cases e.own <;> simp
  have hchoice := evictionChoice_eq c.now v.view (if e.own then none else some e.severity)
  rw [← hlower] at hchoice
  have hkeys : ∀ f : Entry → Bool, (candidates.filter f).Pairwise
      (fun a b => keyLt a.origin a.point b.origin b.point = true) :=
    fun f => viewOrdered_pairwise (viewOrdered_filter _ (viewOrdered_filter _ hv))
  have hfullView : ¬ v.view.length < viewCapacity := Nat.not_lt.2 hfull
  have hreplaced : ∀ x, evictionChoice c.now v.view (if e.own then none else some e.severity) = some x → replaced x :=
    fun x hx => by
      show createEntry c e v = _
      unfold createEntry
      rw [if_neg hfullView, hx]
  refine ⟨fun hr => ?_, fun hr hl => ?_, fun hr hl => ?_⟩
  · obtain ⟨x, hx⟩ := Option.ne_none_iff_exists'.1 (firstBy_isSome (before := retiredBefore c.now) hr)
    refine ⟨x, firstBy_mem hx, hreplaced x ?_, fun y hy hne => ?_⟩
    · exact hchoice.trans (by rw [hx, Option.some_or])
    · refine (retiredBefore_iff c.now x y).1 (firstBy_least ?_ ?_ (hkeys _) hx y hy hne)
      · exact fun a b d h h' => (retiredBefore_iff ..).2
          (((retiredBefore_iff ..).1 h).trans ((retiredBefore_iff ..).1 h'))
      · exact fun a b h => (RetiredLt.total h).imp (retiredBefore_iff ..).2 (retiredBefore_iff ..).2
  · obtain ⟨x, hx⟩ := Option.ne_none_iff_exists'.1 (firstBy_isSome (before := evictBefore c.now) hl)
    refine ⟨x, firstBy_mem hx, hreplaced x ?_, fun y hy hne => ?_⟩
    · exact hchoice.trans (by rw [firstBy_nil_of_empty hr, Option.none_or, hx])
    · refine ((evictBefore_iff c.now x y).1 (firstBy_least ?_ ?_ (hkeys _) hx y hy hne)).spelled
      · exact fun a b d h h' => (evictBefore_iff ..).2 (((evictBefore_iff ..).1 h).trans ((evictBefore_iff ..).1 h'))
      · exact fun a b h => (EvictLt.total h).imp (evictBefore_iff ..).2 (evictBefore_iff ..).2
  · have hnone : evictionChoice c.now v.view (if e.own then none else some e.severity) = none :=
      hchoice.trans (by rw [firstBy_nil_of_empty hr, firstBy_nil_of_empty hl, Option.none_or])
    unfold createEntry
    rw [if_neg hfullView, hnone]

end Sys2Proof.Machine

/-! What one offer does to the Bulletin Queue, case by case: joining, eviction and drops (O35), an item of its key queued
(O36), condensed mode (O37). -/

namespace Sys2Proof.Machine

variable {c : Ctx} {roll : Vector RollRecord 240} {view : List Entry} {x y : QItem} {q : QueueSide}

/-! ## The item that covers a key -/

theorem covering_eq_none_iff (q : List QItem) (o p : Nat) :
    covering q o p = none ↔ ∀ z ∈ q, (z.stampFor o p).isSome = false := by
  simp only [covering, List.find?_eq_none, Bool.not_eq_true]

/-- Where no key is covered twice, no item beside `y` covers a key of `y`. -/
theorem uncovered_beside {a b : List QItem} (hq : queueKeysOnce (a ++ y :: b) = true) {o p : Nat}
    (hy : (y.stampFor o p).isSome = true) : ∀ z ∈ a ++ b, (z.stampFor o p).isSome = false := by
  rw [queueKeysOnce_iff, List.pairwise_append, List.pairwise_cons] at hq
  obtain ⟨-, ⟨hafter, -⟩, hbefore⟩ := hq
  have hcovers := (y.stampFor_isSome_iff o p).1 hy
  intro z hz
  rw [← Bool.not_eq_true, z.stampFor_isSome_iff]
  intro hzcovers
  rcases List.mem_append.1 hz with hz | hz
  · exact hbefore z hz y List.mem_cons_self ((QItem.overlaps_iff z y).2 ⟨o, p, hzcovers, hcovers⟩)
  · exact hafter z hz ((QItem.overlaps_iff y z).2 ⟨o, p, hcovers, hzcovers⟩)

theorem covering_of_once {a b : List QItem} (hq : queueKeysOnce (a ++ y :: b) = true) {o p : Nat}
    (hy : (y.stampFor o p).isSome = true) : covering (a ++ y :: b) o p = some y := by
  have hnone : covering a o p = none := (covering_eq_none_iff a o p).2 fun z hz =>
    uncovered_beside hq hy z (List.mem_append_left b hz)
  unfold covering at hnone ⊢
  rw [List.find?_append, hnone, List.find?_cons, hy]
  rfl

/-- Replacement of a key that `y` alone covers changes `y` alone (R128). -/
theorem replaceKey_once {a b : List QItem} (hq : queueKeysOnce (a ++ y :: b) = true) {o p : Nat}
    (hy : (y.stampFor o p).isSome = true) :
    replaceKey view o p (a ++ y :: b) = a ++ (withoutKey view p y).toList ++ b := by
  have hbeside := uncovered_beside hq hy
  have hkeep : ∀ l : List QItem, (∀ z ∈ l, (z.stampFor o p).isSome = false) → replaceKey view o p l = l := fun l hl =>
    replaceKey_uncovered ((covering_eq_none_iff l o p).2 hl)
  have hsplit : replaceKey view o p (a ++ y :: b) =
      replaceKey view o p a ++ ((withoutKey view p y).toList ++ replaceKey view o p b) := by
    unfold replaceKey
    rw [List.filterMap_append, List.filterMap_cons, if_pos hy]
    cases withoutKey view p y <;> rfl
  rw [hsplit, hkeep a fun z hz => hbeside z (List.mem_append_left b hz),
    hkeep b fun z hz => hbeside z (List.mem_append_right a hz), List.append_assoc]

theorem QItem.stampFor_fault {f : FaultNews} (hx : x.item = .fault f) : x.stampFor f.origin f.point = some f.stamp := by
  simp [QItem.stampFor, hx, Item.stampAt]

/-- A key is queued unless the item held is newer, or of the same stamp against a REFRESH or CORRECTION (R128). -/
theorem keyBlocked_eq {u : Purpose} {o p : Nat} {st held : Stamp} {q : List QItem} (hc : covering q o p = some y)
    (hy : y.stampFor o p = some held) : keyBlocked q u o p st =
      if held = st then u == .refresh || u == .correction else !st.takenNewer held := by
  unfold keyBlocked
  rw [hc, Option.bind_some, hy]

theorem keyBlocked_false {u : Purpose} {o p : Nat} {st held : Stamp} {q : List QItem} (hc : covering q o p = some y)
    (hy : y.stampFor o p = some held)
    (h : held = st ∧ u ≠ .refresh ∧ u ≠ .correction ∨ held ≠ st ∧ st.takenNewer held = true) :
    keyBlocked q u o p st = false := by
  rw [keyBlocked_eq hc hy]
  rcases h with ⟨heq, hr, hcorr⟩ | ⟨hne, hnew⟩
  · rw [if_pos heq]
    simp [hr, hcorr]
  · rw [if_neg hne, hnew]
    rfl

/-! ## Fitting in (R130) -/

theorem evictBack_whole (sev : Nat) (l : List QItem) {n : Nat} (h : n ≤ chargeLimit) : evictBack sev l n = (l, []) := by
  cases l with
  | nil => rfl
  | cons z l => exact if_pos h

theorem markUnsent_nil (c : Ctx) (marks : Vector Bool 32) : markUnsent c [] marks = marks := rfl

/-- What fits in as it stands becomes the queue (R130). -/
theorem fitIn_fits {wanted : List QItem} (h : totalCharge wanted ≤ 2048) (otherwise : List QItem) :
    fitIn c x wanted otherwise q = (({ q with queue := wanted } : QueueSide).count .itemsQueued,
      totalCharge wanted - (totalCharge wanted - totalCharge otherwise)) := by
  have hwhole := evictBack_whole x.severity wanted.reverse h
  unfold fitIn
  simp only [hwhole]
  rw [if_pos (show totalCharge wanted.reverse ≤ chargeLimit by rw [totalCharge_reverse]; exact h), List.reverse_reverse,
    totalCharge_reverse, markUnsent_nil, List.length_nil, QueueSide.count_zero]

/-- What does not fit in even without the items of lower severity is dropped (R130). -/
theorem fitIn_drops {wanted : List QItem}
    (h : 2048 + totalCharge (wanted.filter fun z => z.severity < x.severity) < totalCharge wanted) (otherwise : List QItem) :
    fitIn c x wanted otherwise q =
      (QueueSide.count { q with queue := otherwise, unsent := markUnsent c [x] q.unsent } .droppedFull).placed := by
  have hsublist : (evictBack x.severity wanted.reverse (totalCharge wanted)).2.Sublist wanted.reverse := by
    generalize totalCharge wanted = n
    induction wanted.reverse generalizing n with
    | nil => exact List.Sublist.refl _
    | cons z l ih =>
      unfold evictBack
      split
      · exact List.nil_sublist _
      · split
        · exact (ih _).cons_cons z
        · exact List.nil_sublist _
  have hlower := (hsublist.filter fun z => z.severity < x.severity)
  rw [List.filter_eq_self.2 fun z hz => decide_eq_true (evictBack_lower _ _ _ z hz), List.filter_reverse] at hlower
  have hout := totalCharge_sublist hlower
  have hparts := evictBack_charge x.severity wanted.reverse (totalCharge wanted)
  rw [totalCharge_reverse] at hout hparts
  unfold fitIn
  exact if_neg (show ¬ _ ≤ 2048 by omega)

/-! ## From the placed offer to the offer (R126, R132) -/

theorem offerCore_of_placed {q' : QueueSide} (hm : c.mode = .run) (ho : olderThanRoll c roll x.item = false)
    (hk : perKeyCheck view q.queue x = some y) (hp : placeOffer c view y q = q'.placed) :
    offerCore c roll view x q = testCondensed c q' := by
  rw [offerCore_of_check hm ho hk, hp]
  unfold testCondensed
  rw [testAt_queue]
  exact testAt_testAt c _ q'

/-- Outside condensed mode the test on the way adds nothing (R132). -/
theorem offerCore_of_rising (hm : c.mode = .run) (ho : olderThanRoll c roll x.item = false)
    (hk : perKeyCheck view q.queue x = some y) {r : Placed} (hp : placeOffer c view y q = r)
    (hrise : r.2 ≤ totalCharge r.1.queue) (hc : r.1.condensed = false) : offerCore c roll view x q = testCondensed c r.1 := by
  rw [offerCore_of_check hm ho hk, hp, testCondensed, testAt_queue]
  exact testAt_rising hrise hc

theorem offerCore_of_fits (hm : c.mode = .run) (ho : olderThanRoll c roll x.item = false)
    (hk : perKeyCheck view q.queue x = some y) {z : QItem} {q' : QueueSide} {wanted otherwise : List QItem}
    (hp : placeOffer c view y q = fitIn c z wanted otherwise q') (hc : q'.condensed = false)
    (hfit : totalCharge wanted ≤ 2048) :
    offerCore c roll view x q = testCondensed c (({ q' with queue := wanted } : QueueSide).count .itemsQueued) := by
  rw [fitIn_fits hfit] at hp
  exact offerCore_of_rising hm ho hk hp (Nat.sub_le _ _) hc

theorem offerCore_of_unchecked (hk : perKeyCheck view q.queue x = none) : offerCore c roll view x q = q := by
  simp only [offerCore, offerTested, hk]
  split
  · split <;> rfl
  · rfl

theorem placeOffer_uncondensed (hc : q.condensed = false) (view : List Entry) (x : QItem) :
    placeOffer c view x q = match x.item with
      | .ack a => offerAck c view x a q
      | .fault _ => insertOffer c view x q
      | .compact _ => insertOffer c view x q
      | .alive _ => insertOffer c view x q := by
  unfold placeOffer
  rw [hc]
  rfl

/-! ## An offer of keys that are not queued (O35) -/

theorem carryAck_uncovered {q : List QItem} {f : FaultNews} (h : covering q f.origin f.point = none) : carryAck q f = f := by
  unfold carryAck
  rw [h]
  cases f.ack <;> rfl

/-- Where no key of the offer is queued, insertion is fitting in. -/
theorem insertOffer_uncovered (hfree : ∀ p ∈ x.item.points, covering q.queue x.item.origin p = none) :
    insertOffer c view x q = fitIn c x (enqueue q.queue { x with seq := q.nextSeq }) q.queue
      { q with nextSeq := q.nextSeq + 1 } := by
  have hcarried : (match x.item with
      | .fault f => { x with item := .fault (carryAck q.queue f) }
      | .ack _ => x
      | .compact _ => x
      | .alive _ => x : QItem) = x := by
    cases hx : x.item with
    | fault f =>
      rw [hx] at hfree
      simp only [carryAck_uncovered (hfree f.point List.mem_cons_self)]
      rw [← hx]
    | ack a => rfl
    | compact n => rfl
    | alive a => rfl
  unfold insertOffer
  rw [replaceKeys_uncovered hfree]
  exact congrArg (fun z : QItem => fitIn c z (enqueue q.queue { z with seq := q.nextSeq }) q.queue
    { q with nextSeq := q.nextSeq + 1 }) hcarried

theorem placeOffer_uncovered (hc : q.condensed = false)
    (hfree : ∀ p ∈ x.item.points, covering q.queue x.item.origin p = none) :
    placeOffer c view x q = fitIn c x (enqueue q.queue { x with seq := q.nextSeq }) q.queue
      { q with nextSeq := q.nextSeq + 1 } := by
  rw [placeOffer_uncondensed hc, ← insertOffer_uncovered (view := view) hfree]
  cases hx : x.item with
  | ack a =>
    rw [hx] at hfree
    have hnone : covering q.queue a.origin a.point = none := hfree a.point List.mem_cons_self
    simp only [offerAck, hnone]
  | fault f => rfl
  | compact n => rfl
  | alive a => rfl

/-- Eviction from the back, one item after another (R130): of the items `low`, all of lower severity, `out` goes, as little as
makes room; the items `high` are kept. -/
theorem evictBack_spec {sev : Nat} {high : List QItem} (hhigh : ∀ z ∈ high.head?, sev ≤ z.severity) {low : List QItem} :
    (∀ z ∈ low, z.severity < sev) → ∃ out keep, low = out ++ keep ∧
      evictBack sev (low ++ high) (totalCharge (low ++ high)) = (keep ++ high, out) ∧
      (totalCharge (keep ++ high) ≤ chargeLimit ∨ keep = []) ∧
      ∀ z ∈ out.getLast?, chargeLimit < totalCharge (keep ++ high) + z.item.charge := by
  induction low with
  | nil =>
    refine fun _ => ⟨[], [], rfl, ?_, .inr rfl, nofun⟩
    cases high with
    | nil => rfl
    | cons z high =>
      have hz : ¬ z.severity < sev := Nat.not_lt.2 (hhigh z rfl)
      simp only [List.nil_append, evictBack, if_neg hz, ite_self]
  | cons w low ih =>
    intro hlow
    by_cases hfit : totalCharge (w :: low ++ high) ≤ chargeLimit
    · exact ⟨[], w :: low, rfl, evictBack_whole _ _ hfit, .inl hfit, nofun⟩
    · obtain ⟨out, keep, rfl, hevict, hroom, hneed⟩ := ih fun z hz => hlow z (List.mem_cons_of_mem w hz)
      have htotal : totalCharge (w :: (out ++ keep) ++ high) = w.item.charge + totalCharge (out ++ keep ++ high) := rfl
      refine ⟨w :: out, keep, rfl, ?_, hroom, fun z hz => ?_⟩
      · have hstep : evictBack sev (w :: (out ++ keep) ++ high) (totalCharge (w :: (out ++ keep) ++ high)) =
            ((evictBack sev (out ++ keep ++ high) (totalCharge (out ++ keep ++ high))).1,
              w :: (evictBack sev (out ++ keep ++ high) (totalCharge (out ++ keep ++ high))).2) := by
          rw [List.cons_append] at hfit ⊢
          rw [evictBack, if_neg hfit, if_pos (hlow w List.mem_cons_self),
            show totalCharge (w :: (out ++ keep ++ high)) - w.item.charge = totalCharge (out ++ keep ++ high) by
              rw [totalCharge_cons]; omega]
        rw [hstep, hevict]
      · cases out with
        | nil =>
          obtain rfl : w = z := Option.some.inj hz
          rw [List.nil_append] at hfit htotal
          omega
        | cons v out => exact hneed z hz

/-- A queue in order of severity, split where an item of a severity joins (R125). -/
theorem queue_split {q : List QItem} (hq : queueOrdered q = true) (sev : Nat) :
    q = q.filter (fun z => sev ≤ z.severity) ++ q.filter fun z => z.severity < sev := by
  rw [queueOrdered_iff] at hq
  induction q with
  | nil => rfl
  | cons z q ih =>
    obtain ⟨hz, hq⟩ := List.pairwise_cons.1 hq
    by_cases hsev : sev ≤ z.severity
    · rw [List.filter_cons_of_pos (by simpa using hsev), List.filter_cons_of_neg (by simpa using hsev), List.cons_append,
        ← ih hq]
    · have hall : ∀ w ∈ z :: q, w.severity < sev := fun w hw => by
        rcases List.mem_cons.1 hw with rfl | hw
        · exact Nat.lt_of_not_le hsev
        · exact Nat.lt_of_le_of_lt (hz w hw) (Nat.lt_of_not_le hsev)
      rw [List.filter_eq_nil_iff.2 fun w hw => by simpa using hall w hw,
        List.filter_eq_self.2 fun w hw => by simpa using hall w hw, List.nil_append]

/-- The marks after a loss: those that stood and those of the own points lost (R131). -/
theorem markUnsent_iff (c : Ctx) (lost : List QItem) (marks : Vector Bool 32) {p : Nat} (hp : p < 32) :
    tget (markUnsent c lost marks) p false = true ↔
      tget marks p false = true ∨ ∃ z ∈ lost, p ∈ ownPoints c z.item := by
  have hfold : ∀ (ps : List Nat) (m : Vector Bool 32),
      tget (ps.foldl (fun m p => tset m p true) m) p false = true ↔ tget m p false = true ∨ p ∈ ps := fun ps => by
    induction ps with
    | nil => simp
    | cons a ps ih =>
      intro m
      rw [List.foldl_cons, ih, List.mem_cons]
      by_cases ha : a = p
      · subst ha
        simp [tget_tset_self m true false hp]
      · rw [tget_tset_ne m true false ha]
        simp [Ne.symm ha]
  rw [markUnsent, hfold, List.mem_flatMap]

/-- Settles O35: fitting in, by whether the offer fits as the queue stands, after evictions, or not at all. -/
theorem offerJoinsEvictsOrDrops : Obligations.OfferJoinsEvictsOrDrops := by
  unfold Obligations.OfferJoinsEvictsOrDrops
  intro c roll view x q hm ho hc hordered hcharge hfree hcompact z after lower
  have hcheck := perKeyCheck_uncovered (view := view) hfree hcompact
  have hplace := placeOffer_uncovered (c := c) (view := view) hc hfree
  refine ⟨fun a b hq ha hb hfit => ?_, fun hfull hroom => ?_, fun hfull => ?_, fun lost p hp => markUnsent_iff c lost _ hp⟩
  · have hwanted : enqueue q.queue z = a ++ z :: b := by
      rw [hq]
      exact enqueue_between (y := z) hb ha
    have hcharge' : totalCharge (enqueue q.queue z) ≤ 2048 := by
      rw [totalCharge_enqueue]
      exact hfit
    rw [offerCore_of_fits hm ho hcheck hplace hc hcharge', hwanted]
    rfl
  · obtain ⟨a, b, hab, ha, hb, hlow⟩ : ∃ a b, q.queue = a ++ b ∧ (∀ w ∈ a, x.severity ≤ w.severity) ∧
        (∀ w ∈ b, w.severity < x.severity) ∧ totalCharge b = lower :=
      ⟨_, _, queue_split hordered x.severity, fun w hw => by simpa using (List.mem_filter.1 hw).2,
        fun w hw => by simpa using (List.mem_filter.1 hw).2, rfl⟩
    have hwanted : enqueue q.queue z = a ++ z :: b := by
      rw [hab]
      exact enqueue_between (y := z) hb ha
    obtain ⟨out, keep, hparts, hevict, hfits, hneed⟩ := evictBack_spec (sev := x.severity) (high := z :: a.reverse)
      (low := b.reverse) (fun w hw => by
        obtain rfl := Option.some.inj hw
        exact Nat.le_refl _) fun w hw => hb w (List.mem_reverse.1 hw)
    have hb' : b = keep.reverse ++ out.reverse := by
      rw [← List.reverse_append, ← hparts, List.reverse_reverse]
    have hreverse : (a ++ z :: b).reverse = b.reverse ++ z :: a.reverse := by simp
    have hkept : (keep ++ z :: a.reverse).reverse = a ++ z :: keep.reverse := by simp
    have htotal : totalCharge (keep ++ z :: a.reverse) = totalCharge (a ++ z :: keep.reverse) := by
      rw [← hkept, totalCharge_reverse]
    have hin : totalCharge (keep ++ z :: a.reverse) ≤ 2048 := by
      rcases hfits with h | h
      · exact h
      · rw [hab, totalCharge_append] at hroom
        rw [h, List.nil_append, totalCharge_cons, totalCharge_reverse]
        show x.item.charge + totalCharge a ≤ 2048
        omega
    have hfitIn : fitIn c x (enqueue q.queue z) q.queue { q with nextSeq := q.nextSeq + 1 } =
        (((after (a ++ z :: keep.reverse) out).count .droppedFull out.length).count .itemsQueued,
          totalCharge (keep ++ z :: a.reverse) - (totalCharge (enqueue q.queue z) - totalCharge q.queue)) := by
      have hevict' : evictBack x.severity (enqueue q.queue z).reverse (totalCharge (enqueue q.queue z)) =
          (keep ++ z :: a.reverse, out) := by
        rw [hwanted, hreverse, ← hevict, ← hreverse, totalCharge_reverse]
      unfold fitIn
      simp only [hevict']
      rw [if_pos (show totalCharge (keep ++ z :: a.reverse) ≤ chargeLimit from hin), hkept]
    refine ⟨a, keep.reverse, out.reverse, ?_, ?_, ha, fun w hw => hb w (hb' ▸ hw), htotal ▸ hin, fun w hw => ?_, ?_⟩
    · rw [hab, hb', List.append_assoc]
    · intro hnone
      rw [hnone, List.append_nil] at hb'
      rw [htotal, ← hb', totalCharge_append, totalCharge_cons] at hin
      rw [hab, totalCharge_append] at hfull
      have hsame : z.item.charge = x.item.charge := rfl
      omega
    · rw [← htotal]
      exact hneed w (by rwa [List.head?_reverse] at hw)
    · rw [List.reverse_reverse, List.length_reverse]
      have hrise := offerCore_of_rising hm ho hcheck (hplace.trans hfitIn)
      refine hrise ?_ hc
      show _ ≤ totalCharge (a ++ z :: keep.reverse)
      rw [← htotal]
      exact Nat.sub_le _ _
  · have hdrops : 2048 + totalCharge ((enqueue q.queue z).filter fun w => w.severity < x.severity) <
        totalCharge (enqueue q.queue z) := by
      have hfilter : ((enqueue q.queue z).filter fun w => w.severity < x.severity) =
          q.queue.filter fun w => w.severity < x.severity := by
        rw [queue_split hordered x.severity]
        have hsplit := enqueue_between (y := z) (a := q.queue.filter fun w => x.severity ≤ w.severity)
          (b := q.queue.filter fun w => w.severity < x.severity)
          (fun w hw => by simpa using (List.mem_filter.1 hw).2) fun w hw => by simpa using (List.mem_filter.1 hw).2
        rw [hsplit, List.filter_append, List.filter_append, List.filter_cons_of_neg (by simp [z])]
      rw [hfilter, totalCharge_enqueue]
      exact hfull
    exact offerCore_of_placed hm ho hcheck (hplace.trans (fitIn_drops hdrops q.queue))

end Sys2Proof.Machine

/-! An offer that meets a queued item of its key (O36), and condensed mode (O37). -/

namespace Sys2Proof.Machine

variable {c : Ctx} {roll : Vector RollRecord 240} {view : List Entry} {x y : QItem} {q : QueueSide}

/-! ## Checked offers by type (R128) -/

theorem perKeyCheck_fault {f : FaultNews} (hx : x.item = .fault f) (q : List QItem) :
    perKeyCheck view q x = if keyBlocked q x.purpose f.origin f.point f.stamp then none else some x := by
  simp only [perKeyCheck, hx]

theorem perKeyCheck_ack {k : AckNews} (hx : x.item = .ack k) (q : List QItem) :
    perKeyCheck view q x = if keyBlocked q x.purpose k.origin k.point k.stamp then none else some x := by
  simp only [perKeyCheck, hx]

theorem perKeyCheck_compact {n : CompactNews} (hx : x.item = .compact n) (q : List QItem) :
    perKeyCheck view q x = (compactOf view { n with
      points := n.points.filter fun z => !keyBlocked q x.purpose n.origin z.point ⟨n.start, z.change⟩ }).map
        fun i => { x with item := i } := by
  simp only [perKeyCheck, hx]

theorem perKeyCheck_of_free {q : List QItem} {f : FaultNews} (hx : x.item = .fault f)
    (h : keyBlocked q x.purpose f.origin f.point f.stamp = false) : perKeyCheck view q x = some x := by
  rw [perKeyCheck_fault hx, h]
  rfl

theorem perKeyCheck_of_freeAck {q : List QItem} {k : AckNews} (hx : x.item = .ack k)
    (h : keyBlocked q x.purpose k.origin k.point k.stamp = false) : perKeyCheck view q x = some x := by
  rw [perKeyCheck_ack hx, h]
  rfl

/-- A FAULT offer inserted: it takes an ack part of its stamp, and its key is taken from what stands (R128, R129). -/
theorem insertOffer_fault {f : FaultNews} (hx : x.item = .fault f) : insertOffer c view x q =
    fitIn c { x with item := .fault (carryAck q.queue f) }
      (enqueue (replaceKey view f.origin f.point q.queue)
        { x with item := .fault (carryAck q.queue f), seq := q.nextSeq })
      (replaceKey view f.origin f.point q.queue) { q with nextSeq := q.nextSeq + 1 } := by
  simp only [insertOffer, hx]
  rfl

theorem carryAck_of_compact {q : List QItem} {f : FaultNews} {n : CompactNews}
    (hc : covering q f.origin f.point = some y) (hy : y.item = .compact n) : carryAck q f = f := by
  unfold carryAck
  rw [hc]
  cases f.ack with
  | none => simp only [hy]
  | some k => rfl

theorem carryAck_of_fault {q : List QItem} {f g : FaultNews} (hc : covering q f.origin f.point = some y)
    (hy : y.item = .fault g) : carryAck q f = if f.ack = none ∧ f.stamp = g.stamp then { f with ack := g.ack } else f := by
  unfold carryAck
  rw [hc]
  cases hack : f.ack with
  | none =>
    simp only [hy, true_and]
    by_cases h : g.stamp = f.stamp
    · rw [if_pos h, if_pos h.symm]
    · rw [if_neg h, if_neg (Ne.symm h)]
  | some k => exact (if_neg fun h => nomatch h.1).symm

/-! ## A point of a COMPACT as a FAULT -/

/-- A COMPACT point as the FAULT that replacement, the per-key check or a split makes of it (R128, R129). -/
theorem compactFault_eq (view : List Entry) (n : CompactNews) (z : CompactPoint) (ack : Option Ack) :
    compactFault view n z ack = ⟨n.origin, z.point, ⟨n.start, z.change⟩, n.kind, n.severity, n.state,
      match findEntry view n.origin z.point with
        | some e => e.occurrences
        | none => if n.state = .active then 1 else 0, z.age, z.asOf, n.hop, ack, none⟩ := by
  unfold compactFault compactOccurrences
  cases findEntry view n.origin z.point with
  | some e => rfl
  | none => cases n.state <;> rfl

/-- What a COMPACT is without one of its keys: by the points left (R128). -/
theorem withoutKey_compact {n : CompactNews} (hy : y.item = .compact n) (view : List Entry) (p : Nat) :
    (withoutKey view p y).toList = match n.points.filter (fun z => z.point != p) with
      | [] => []
      | [z] => [{ y with item := .fault (compactFault view n z none) }]
      | z :: w :: l => [{ y with item := .compact { n with points := z :: w :: l } }] := by
  simp only [withoutKey, hy]
  cases n.points.filter fun z => z.point != p with
  | nil => rfl
  | cons z l =>
    cases l with
    | nil => rfl
    | cons w l => rfl

/-! ## A FAULT offer that meets an item of its key (O36) -/

section Meets

variable {a b : List QItem} {f : FaultNews} {st : Stamp}

/-- A FAULT offer that the item held does not block takes its place. -/
theorem offerCore_replaces (hm : c.mode = .run) (hc : q.condensed = false) (ho : olderThanRoll c roll x.item = false)
    (hq : queueKeysOnce q.queue = true) (hqueue : q.queue = a ++ y :: b) (hx : x.item = .fault f)
    (hy : y.stampFor f.origin f.point = some st)
    (h : st = f.stamp ∧ x.purpose ≠ .refresh ∧ x.purpose ≠ .correction ∨ st ≠ f.stamp ∧ f.stamp.takenNewer st = true)
    {g : FaultNews} (hg : carryAck q.queue f = g)
    (hfit : totalCharge (enqueue (a ++ (withoutKey view f.point y).toList ++ b)
      { x with item := .fault g, seq := q.nextSeq }) ≤ 2048) :
    offerCore c roll view x q = testCondensed c (({ q with
      queue := enqueue (a ++ (withoutKey view f.point y).toList ++ b) { x with item := .fault g, seq := q.nextSeq }
      nextSeq := q.nextSeq + 1 } : QueueSide).count .itemsQueued) := by
  have hsome : (y.stampFor f.origin f.point).isSome = true := by rw [hy]; rfl
  rw [hqueue] at hq
  have hcov : covering q.queue f.origin f.point = some y := hqueue ▸ covering_of_once hq hsome
  have hcheck := perKeyCheck_of_free (view := view) hx (keyBlocked_false (u := x.purpose) hcov hy h)
  have hplace : placeOffer c view x q = insertOffer c view x q := by
    rw [placeOffer_uncondensed hc, hx]
  rw [insertOffer_fault hx, hg, hqueue, replaceKey_once hq hsome] at hplace
  exact offerCore_of_fits hm ho hcheck hplace hc hfit

/-- An offer whose key is blocked is not queued (R128). -/
theorem offerCore_blocked (hx : x.item = .fault f) (h : keyBlocked q.queue x.purpose f.origin f.point f.stamp = true) :
    offerCore c roll view x q = q :=
  offerCore_of_unchecked (by rw [perKeyCheck_fault hx, h]; rfl)

end Meets

/-! ## An ACK offer that meets an item of its stamp (O36) -/

section Acks

variable {a b : List QItem} {k : AckNews}

theorem offerCore_ack_check (hx : x.item = .ack k) (hp : x.purpose = .own ∨ x.purpose = .relay)
    (hcov : covering q.queue k.origin k.point = some y) (hy : y.stampFor k.origin k.point = some k.stamp) :
    perKeyCheck view q.queue x = some x := by
  refine perKeyCheck_of_freeAck hx (keyBlocked_false hcov hy (.inl ⟨rfl, ?_, ?_⟩)) <;>
    rcases hp with hp | hp <;> rw [hp] <;> nofun

theorem placeOffer_ack (hc : q.condensed = false) (hx : x.item = .ack k) :
    placeOffer c view x q = offerAck c view x k q := by
  rw [placeOffer_uncondensed hc, hx]

theorem offerAck_compact {n : CompactNews} (hcov : covering q.queue k.origin k.point = some y)
    (hy : y.stampFor k.origin k.point = some k.stamp) (hn : y.item = .compact n) :
    offerAck c view x k q = fitIn c x (splitForAck view k q.queue) q.queue q := by
  simp only [offerAck, hcov, hy, if_true, hn]

theorem offerAck_fault {g : FaultNews} (hcov : covering q.queue k.origin k.point = some y)
    (hy : y.stampFor k.origin k.point = some k.stamp) (hg : y.item = .fault g) : offerAck c view x k q =
      if g.ack.isSome then q.placed
      else (({ q with queue := mergeAck k q.queue } : QueueSide).count .itemsQueued).placed := by
  simp only [offerAck, hcov, hy, if_true, hg]

/-- Items that do not cover the key of an acknowledgement are not split by it. -/
theorem splitForAck_uncovered {l : List QItem} (h : ∀ z ∈ l, (z.stampFor k.origin k.point).isSome = false) :
    splitForAck view k l = l := by
  induction l with
  | nil => rfl
  | cons z l ih =>
    rw [splitForAck_cons, ih fun w hw => h w (List.mem_cons_of_mem z hw)]
    rcases splitForAck_one view k z with hz | ⟨n, w, hn, hw, hp, hz⟩
    · rw [hz]
      rfl
    · rw [splitForAck]
      have hnot := h z List.mem_cons_self
      rw [← Bool.not_eq_true, z.stampFor_isSome_iff] at hnot
      have ho : n.origin ≠ k.origin := fun ho => hnot ⟨by rw [hn]; exact ho, by
        rw [hn]
        exact List.mem_map.2 ⟨w, hw, hp⟩⟩
      simp only [List.flatMap_cons, List.flatMap_nil, hn, ho, if_false, List.append_nil]
      cases n.points.find? (·.point == k.point) <;> rfl

/-- The split of the one COMPACT that covers the point (R125, R129). -/
theorem splitForAck_once {n : CompactNews} {z : CompactPoint} (hq : queueKeysOnce (a ++ y :: b) = true)
    (hy : (y.stampFor k.origin k.point).isSome = true) (hn : y.item = .compact n)
    (hz : n.points.find? (·.point == k.point) = some z) : splitForAck view k (a ++ y :: b) =
      a ++ (withoutKey view k.point y).toList ++ { y with item := .fault (compactFault view n z (some k.ack)) } :: b := by
  have hbeside := uncovered_beside hq hy
  have horigin : n.origin = k.origin := by
    have hcovers := ((y.stampFor_isSome_iff _ _).1 hy).1
    rwa [hn] at hcovers
  have happend : splitForAck view k (a ++ y :: b) = splitForAck view k a ++ (splitForAck view k [y] ++ splitForAck view k b) := by
    rw [← splitForAck_cons]
    exact List.flatMap_append
  have hone : splitForAck view k [y] =
      (withoutKey view k.point y).toList ++ [{ y with item := .fault (compactFault view n z (some k.ack)) }] := by
    simp only [splitForAck, List.flatMap_cons, List.flatMap_nil, List.append_nil, hn, hz, horigin, if_true]
  rw [happend, hone, splitForAck_uncovered fun z hz => hbeside z (List.mem_append_left b hz),
    splitForAck_uncovered fun z hz => hbeside z (List.mem_append_right a hz)]
  simp only [List.append_assoc, List.cons_append, List.nil_append]

/-- The merge of an acknowledgement into the one FAULT of its key, in place (R129). -/
theorem mergeAck_once {g : FaultNews} (hq : queueKeysOnce (a ++ y :: b) = true) (hg : y.item = .fault g)
    (ho : k.origin = g.origin) (hp : k.point = g.point) :
    mergeAck k (a ++ y :: b) = a ++ { y with item := .fault { g with ack := some k.ack } } :: b := by
  have hbeside := uncovered_beside hq (o := g.origin) (p := g.point) (by rw [QItem.stampFor_fault hg]; rfl)
  have hkeep : ∀ l : List QItem, (∀ z ∈ l, (z.stampFor g.origin g.point).isSome = false) → mergeAck k l = l := fun l hl => by
    refine (List.map_congr_left fun z hz => ?_).trans (List.map_id l)
    split
    · rename_i f hf
      refine if_neg fun ⟨hfo, hfp⟩ => ?_
      have hnot := hl z hz
      rw [← ho, ← hp, ← hfo, ← hfp, QItem.stampFor_fault hf] at hnot
      nomatch hnot
    · rfl
    · rfl
    · rfl
  have happend : mergeAck k (a ++ y :: b) = mergeAck k a ++ (mergeAck k [y] ++ mergeAck k b) := by
    simp only [mergeAck, List.map_append, List.map_cons, List.map_nil, List.cons_append, List.nil_append]
  have hone : mergeAck k [y] = [{ y with item := .fault { g with ack := some k.ack } }] := by
    simp only [mergeAck, List.map_cons, List.map_nil, hg, ho, hp, and_self, if_true]
  rw [happend, hone, hkeep a fun z hz => hbeside z (List.mem_append_left b hz),
    hkeep b fun z hz => hbeside z (List.mem_append_right a hz)]
  rfl

end Acks

/-! ## A COMPACT offer that meets items of its keys (O36) -/

section Compacts

variable {n : CompactNews}

/-- The points of a COMPACT offer that the per-key check leaves (R128). -/
def freePoints (q : List QItem) (u : Purpose) (n : CompactNews) : List CompactPoint :=
  n.points.filter fun z => !keyBlocked q u n.origin z.point ⟨n.start, z.change⟩

theorem freePoints_eq (q : List QItem) (u : Purpose) (n : CompactNews) : freePoints q u n = n.points.filter fun z =>
    match (covering q n.origin z.point).bind (·.stampFor n.origin z.point) with
    | none => true
    | some st => if st = ⟨n.start, z.change⟩ then !(u == .refresh || u == .correction)
      else Stamp.takenNewer ⟨n.start, z.change⟩ st := by
  refine List.filter_congr fun z _ => ?_
  unfold keyBlocked
  cases (covering q n.origin z.point).bind (·.stampFor n.origin z.point) with
  | none => rfl
  | some st =>
    simp only
    split
    · rfl
    · exact Bool.not_not _

/-- Two offers whose checks leave the same of them, of one origin and start count, do the same. -/
theorem offerCore_congr {z : QItem} (hz : olderThanRoll c roll x.item = olderThanRoll c roll z.item)
    (hk : perKeyCheck view q.queue x = perKeyCheck view q.queue z) :
    offerCore c roll view x q = offerCore c roll view z q := by
  simp only [offerCore, offerTested, hz, hk]

theorem offerCore_compact_none (hx : x.item = .compact n) (h : freePoints q.queue x.purpose n = []) :
    offerCore c roll view x q = q := by
  refine offerCore_of_unchecked ((perKeyCheck_compact hx q.queue).trans ?_)
  rw [show n.points.filter _ = [] from h]
  rfl

theorem offerCore_compact_one {z : CompactPoint} (hx : x.item = .compact n)
    (h : freePoints q.queue x.purpose n = [z]) : offerCore c roll view x q =
      offerCore c roll view { x with item := .fault (compactFault view n z none) } q := by
  refine offerCore_congr (by rw [hx]; rfl) ?_
  have hfree : keyBlocked q.queue x.purpose n.origin z.point ⟨n.start, z.change⟩ = false := by
    have hmem : z ∈ freePoints q.queue x.purpose n := h ▸ List.mem_singleton_self z
    simpa using (List.mem_filter.1 hmem).2
  refine (perKeyCheck_compact hx q.queue).trans ?_
  rw [show n.points.filter _ = [z] from h]
  exact (perKeyCheck_of_free (x := { x with item := .fault (compactFault view n z none) }) rfl hfree).symm

theorem offerCore_compact_many (hx : x.item = .compact n) :
    offerCore c roll view x q =
      offerCore c roll view { x with item := .compact { n with points := freePoints q.queue x.purpose n } } q := by
  refine offerCore_congr (by rw [hx]; rfl) ?_
  refine (perKeyCheck_compact hx q.queue).trans (Eq.trans ?_ (perKeyCheck_compact
    (x := { x with item := .compact { n with points := freePoints q.queue x.purpose n } }) rfl q.queue).symm)
  have hagain : freePoints q.queue x.purpose { n with points := freePoints q.queue x.purpose n } =
      freePoints q.queue x.purpose n :=
      List.filter_eq_self.2 fun z hz => (List.mem_filter.1 hz).2
  exact congrArg (fun l => (compactOf view { n with points := l }).map fun i => { x with item := i }) hagain.symm

end Compacts

/-- Settles O36: the queued item is the one that covers the key; the checks and insertions by type. -/
theorem offerMeetsQueuedFault : Obligations.OfferMeetsQueuedFault := by
  unfold Obligations.OfferMeetsQueuedFault
  refine ⟨fun c roll view x y n q => ?_, fun c roll view x y g q a b hm hc hq hqueue hg ho => ⟨fun f hx hfo hfp => ?_,
    fun k hx hp hko hkp hst => ?_⟩⟩
  · intro single without
    have hsingle : ∀ z ack, Item.fault (compactFault view n z ack) = single n z ack := fun z ack =>
      congrArg Item.fault (compactFault_eq view n z ack)
    have hremoved : y.item = .compact n → ∀ p, (withoutKey view p y).toList = without p := fun hn p => by
      rw [withoutKey_compact hn]
      simp only [hsingle, without]
      generalize n.points.filter (fun z => z.point != p) = left
      rcases left with _ | ⟨z, _ | ⟨w, l⟩⟩ <;> rfl
    refine ⟨fun a b st hm hc hq hqueue hn ho => ⟨fun f hx hy h => ?_, fun k z hx hp hy hz => ?_⟩, fun hx => ?_⟩
    · have hwithout := hremoved hn f.point
      have hsome : (y.stampFor f.origin f.point).isSome = true := by rw [hy]; rfl
      have hcov : covering q.queue f.origin f.point = some y := by
        rw [hqueue] at hq ⊢
        exact covering_of_once hq hsome
      have hcarry := carryAck_of_compact hcov hn
      intro l hfit
      have hsame : ({ x with item := .fault f, seq := q.nextSeq } : QItem) = { x with seq := q.nextSeq } := by rw [← hx]
      have hreplaces := offerCore_replaces (view := view) (c := c) (roll := roll) hm hc ho hq hqueue hx hy h hcarry
      rw [hwithout, hsame] at hreplaces
      exact hreplaces hfit
    · have hwithout := hremoved hn k.point
      have hsome : (y.stampFor k.origin k.point).isSome = true := by rw [hy]; rfl
      have hcov : covering q.queue k.origin k.point = some y := by
        rw [hqueue] at hq ⊢
        exact covering_of_once hq hsome
      have hcheck := offerCore_ack_check (view := view) hx hp hcov hy
      have hplace := (placeOffer_ack (c := c) (view := view) hc hx).trans (offerAck_compact hcov hy hn)
      have hsplit : splitForAck view k q.queue = a ++ without k.point ++ { y with item := single n z (some k.ack) } :: b := by
        rw [hqueue] at hq ⊢
        rw [splitForAck_once hq hsome hn hz, hwithout, hsingle]
      rw [hsplit] at hplace
      intro l
      refine ⟨fun hfit => offerCore_of_fits hm ho hcheck hplace hc hfit, fun hfull => ?_⟩
      rw [fitIn_drops hfull] at hplace
      have hmarks : markUnsent c [x] q.unsent = q.unsent := by
        simp only [markUnsent, List.flatMap_cons, hx, ownPoints, List.flatMap_nil, List.nil_append, List.foldl_nil]
      rw [hmarks] at hplace
      exact offerCore_of_placed hm ho hcheck hplace
    · intro free
      have hfree : freePoints q.queue x.purpose n = free := freePoints_eq q.queue x.purpose n
      refine ⟨fun h => offerCore_compact_none hx (hfree.trans h), fun z h => ?_, fun _ => ?_⟩
      · rw [← hsingle]
        exact offerCore_compact_one hx (hfree.trans h)
      · rw [← hfree]
        exact offerCore_compact_many hx
  · have hy : y.stampFor f.origin f.point = some g.stamp := by
      rw [hfo, hfp]
      exact QItem.stampFor_fault hg
    have hcov : covering q.queue f.origin f.point = some y := by
      rw [hqueue] at hq ⊢
      exact covering_of_once hq (by rw [hy]; rfl)
    have hblocked := keyBlocked_eq (u := x.purpose) (st := f.stamp) hcov hy
    refine ⟨fun hne hold => offerCore_blocked hx ?_, fun heq hp => offerCore_blocked hx ?_, fun h => ?_⟩
    · rw [hblocked, if_neg (Ne.symm hne), hold]
      rfl
    · rw [hblocked, if_pos heq.symm]
      rcases hp with hp | hp <;> rw [hp] <;> rfl
    · intro f' l hfit
      have hgone : (withoutKey view f.point y).toList = [] := by
        simp only [withoutKey, hg, Option.toList_none]
      have hreplaces := offerCore_replaces (view := view) (c := c) (roll := roll) hm hc ho hq hqueue hx hy
        (h.symm.imp (fun h => ⟨h.1.symm, h.2⟩) fun h => ⟨Ne.symm h.1, h.2⟩) (carryAck_of_fault hcov hg)
      rw [hgone, List.append_nil] at hreplaces
      exact hreplaces hfit
  · have hy : y.stampFor k.origin k.point = some k.stamp := by
      rw [hko, hkp, hst]
      exact QItem.stampFor_fault hg
    have hcov : covering q.queue k.origin k.point = some y := by
      rw [hqueue] at hq ⊢
      exact covering_of_once hq (by rw [hy]; rfl)
    have hcheck := offerCore_ack_check (view := view) hx hp hcov hy
    have hplace := (placeOffer_ack (c := c) (view := view) hc hx).trans (offerAck_fault hcov hy hg)
    refine ⟨fun hack => ?_, fun hack => ?_⟩
    · rw [if_neg (by rw [hack]; nofun), hqueue, mergeAck_once (hqueue ▸ hq) hg hko hkp] at hplace
      exact offerCore_of_placed hm ho hcheck hplace
    · rw [if_pos (Option.isSome_iff_ne_none.2 hack)] at hplace
      exact offerCore_of_placed hm ho hcheck hplace

/-! ## Condensed mode (O37) -/

theorem testCondensed_enters (h : 64 * c.cfg.condenseOn ≤ totalCharge q.queue) :
    testCondensed c q = { q with condensed := true } := if_pos h

theorem testCondensed_leaves (hon : totalCharge q.queue < 64 * c.cfg.condenseOn)
    (hoff : totalCharge q.queue ≤ 64 * c.cfg.condenseOff) : testCondensed c q = { q with condensed := false } :=
  (if_neg (Nat.not_le.2 hon)).trans (if_pos hoff)

theorem testCondensed_keeps (hon : totalCharge q.queue < 64 * c.cfg.condenseOn)
    (hoff : 64 * c.cfg.condenseOff < totalCharge q.queue) : testCondensed c q = q :=
  (if_neg (Nat.not_le.2 hon)).trans (if_neg (Nat.not_le.2 hoff))

theorem placeOffer_refused (hc : q.condensed = true) (h : condensedRefuses c x = true) :
    placeOffer c view x q = (q.count .droppedCondensed).placed := by
  unfold placeOffer
  rw [if_pos (by rw [hc, h]; rfl)]

theorem placeOffer_merged {r : QueueSide} (hc : q.condensed = true) (hr : condensedRefuses c x = false)
    (hmerge : condensedMerge c view x q = some r) : placeOffer c view x q = r.placed := by
  unfold placeOffer
  rw [if_neg (by rw [hr, Bool.and_false]; nofun), if_pos hc, hmerge]

/-- The merge into the target nearest the head changes the target alone, where no item covers the offer's key (R134). -/
theorem mergeFirst_target {f : FaultNews} {t : QItem} {b : List QItem} (ht : mergeTarget c f t = true) :
    ∀ {a : List QItem}, (∀ z ∈ a, mergeTarget c f z = false) →
      (∀ z ∈ a ++ b, (z.stampFor f.origin f.point).isSome = false) →
      mergeFirst c view f (a ++ t :: b) = a ++ mergeInto c f t :: b
  | [], _, hfree => by
    rw [List.nil_append, mergeFirst, if_pos ht,
      replaceKey_uncovered ((covering_eq_none_iff b _ _).2 fun z hz => hfree z hz), List.nil_append]
  | z :: a, ha, hfree => by
    have hz : replaceKey view f.origin f.point [z] = [z] := replaceKey_uncovered ((covering_eq_none_iff _ _ _).2 fun w hw => by
      rw [List.mem_singleton.1 hw]
      exact hfree z List.mem_cons_self)
    rw [List.cons_append, mergeFirst, if_neg (by rw [ha z List.mem_cons_self]; nofun), hz,
      mergeFirst_target ht (fun w hw => ha w (List.mem_cons_of_mem z hw)) fun w hw => hfree w (List.mem_cons_of_mem z hw)]
    rfl

/-- The merge of condensed mode with its target (R134). -/
theorem condensedMerge_target {f : FaultNews} {t : QItem} {a b : List QItem} (hx : x.item = .fault f)
    (hp : x.purpose = .own ∨ x.purpose = .resync) (hown : f.origin = c.number) (hack : f.ack = none)
    (haff : f.affected = none) (hqueue : q.queue = a ++ t :: b) (ha : ∀ z ∈ a, mergeTarget c f z = false)
    (ht : mergeTarget c f t = true) (hfree : covering q.queue f.origin f.point = none)
    (hfit : totalCharge (a ++ mergeInto c f t :: b) ≤ 2048) : condensedMerge c view x q =
      some (({ q with queue := a ++ mergeInto c f t :: b } : QueueSide).count .itemsQueued) := by
  have hfind : q.queue.find? (mergeTarget c f) = some t := by
    rw [hqueue, List.find?_append, List.find?_eq_none.2 fun z hz => by rw [ha z hz]; nofun, List.find?_cons, ht]
    rfl
  have hmerged : mergeFirst c view f q.queue = a ++ mergeInto c f t :: b := by
    rw [covering_eq_none_iff, hqueue] at hfree
    rw [hqueue]
    refine mergeFirst_target ht ha fun z hz => hfree z ?_
    rcases List.mem_append.1 hz with hz | hz
    · exact List.mem_append_left _ hz
    · exact List.mem_append_right _ (List.mem_cons_of_mem t hz)
  have hroom : totalCharge q.queue + (mergeInto c f t).item.charge - t.item.charge ≤ chargeLimit := by
    rw [hqueue]
    simp only [totalCharge_append, totalCharge_cons] at hfit ⊢
    show _ ≤ 2048
    omega
  simp only [condensedMerge, hx]
  rw [if_pos ⟨hp, hack, haff, hown⟩, hfind]
  simp only
  rw [if_pos hroom, hmerged]

/-- Settles O37: the test at the total charge, the refusals, and the merge with the target nearest the head. -/
theorem condensedModeRefusesAndMerges : Obligations.CondensedModeRefusesAndMerges := by
  unfold Obligations.CondensedModeRefusesAndMerges
  intro c roll view x f q
  refine ⟨testCondensed_enters, testCondensed_leaves, testCondensed_keeps, fun hm hc hx ho hfree => ?_⟩
  have hcheck : perKeyCheck view q.queue x = some x := perKeyCheck_of_free hx (keyBlocked_uncovered hfree)
  refine ⟨fun h => ?_, fun a t b hp hown hack haff hqueue ha => ?_⟩
  · refine offerCore_of_placed hm ho hcheck (placeOffer_refused hc ?_)
    unfold condensedRefuses
    rcases h with h | ⟨h | h, hlow⟩
    · rw [h]
    · rw [h]
      exact decide_eq_true hlow
    · rw [h]
      exact decide_eq_true hlow
  · intro same pt becomes
    have huncovered : (t.stampFor f.origin f.point).isSome = false :=
      (covering_eq_none_iff _ _ _).1 hfree t (hqueue ▸ List.mem_append_right a List.mem_cons_self)
    rw [← Bool.not_eq_true, t.stampFor_isSome_iff] at huncovered
    have hmerges : mergeTarget c f t = true → totalCharge (a ++ mergeInto c f t :: b) ≤ 2048 →
        offerCore c roll view x q =
          testCondensed c (({ q with queue := a ++ mergeInto c f t :: b } : QueueSide).count .itemsQueued) := fun ht hfit => by
      refine offerCore_of_placed hm ho hcheck (placeOffer_merged hc ?_
        (condensedMerge_target hx hp hown hack haff hqueue ha ht hfree hfit))
      unfold condensedRefuses
      rcases hp with hp | hp <;> rw [hp]
    refine ⟨fun n ht hsame hlength => ?_, fun g ht hgack hgaff hsame => ?_⟩
    · obtain ⟨hno, hns, hnk, hnsev, hnst⟩ := hsame
      have hinto : mergeInto c f t = { t with
          item := .compact { n with hop := c.cfg.hopBudget, points := n.points ++ [pt] }, purpose := .own, heard := 0 } := by
        simp only [mergeInto, ht]
        rfl
      have htarget : mergeTarget c f t = true := by
        have hpoint : (n.points.any fun z => z.point == f.point) = false := by
          rw [List.any_eq_false]
          intro z hz hzp
          refine huncovered ⟨by rw [ht]; exact hno.trans hown.symm, ?_⟩
          rw [ht]
          exact List.mem_map.2 ⟨z, hz, beq_iff_eq.1 hzp⟩
        simp only [mergeTarget, ht, hno, hns, hnk, hnsev, hnst, hpoint, beq_self_eq_true, Bool.true_and, Bool.not_false,
          Bool.and_true, decide_eq_true_eq]
        exact hlength
      rw [hinto] at hmerges
      exact hmerges htarget
    · obtain ⟨hgo, hgs, hgk, hgsev, hgst⟩ := hsame
      have hinto : mergeInto c f t = { t with
          item := .compact ⟨g.origin, g.stamp.start, g.kind, g.severity, g.state, c.cfg.hopBudget,
            [⟨g.point, g.stamp.change, g.age, g.asOf⟩, pt]⟩, purpose := .own, heard := 0 } := by
        simp only [mergeInto, ht]
        rfl
      have htarget : mergeTarget c f t = true := by
        have hpoint : g.point ≠ f.point := fun h => huncovered ⟨by rw [ht]; exact hgo.trans hown.symm, by
          rw [ht]
          exact h ▸ List.mem_singleton_self _⟩
        simp [mergeTarget, ht, hgo, hgs, hgk, hgsev, hgst, hgack, hgaff, hpoint]
      rw [hinto] at hmerges
      exact hmerges htarget

end Sys2Proof.Machine

/-! Duplicate notices and correction checks (O38). -/

namespace Sys2Proof.Machine

variable {c : Ctx} {roll : Vector RollRecord 240} {view : List Entry} {x : QItem} {q : QueueSide} {o p : Nat} {st : Stamp}

/-! ## Notices (R136) -/

theorem duplicateNotice_none (h : ∀ x ∈ q.queue, x.stampFor o p = some st → x.purpose ≠ .relay)
    (earlier : List (Nat × Stamp)) : duplicateNotice c roll view o p st earlier q = q := by
  unfold duplicateNotice
  split
  · rfl
  · rename_i x hx
    exact if_neg fun ⟨hrelay, hst, _⟩ => h x (List.mem_of_find?_eq_some hx) hst hrelay

/-- A notice that meets the relay of its stamp counts on it or withdraws it. -/
theorem duplicateNotice_relay {a b : List QItem} (hqueue : q.queue = a ++ x :: b) (hq : queueKeysOnce q.queue = true)
    (hst : x.stampFor o p = some st) (hrelay : x.purpose = .relay) : duplicateNotice c roll view o p st [] q =
      if c.cfg.suppression ≤ x.heard then
        afterChange c roll view q (({ q with queue := a ++ b } : QueueSide).count .relaysSuppressed)
      else { q with queue := a ++ { x with heard := x.heard + 1 } :: b } := by
  have hsome : (x.stampFor o p).isSome = true := by rw [hst]; rfl
  rw [hqueue] at hq
  have hcov : covering q.queue o p = some x := hqueue ▸ covering_of_once hq hsome
  have hbeside := uncovered_beside hq hsome
  have hfilter : q.queue.filter (fun y => (y.stampFor o p).isNone) = a ++ b := by
    have hkeep : ∀ l : List QItem, (∀ z ∈ l, (z.stampFor o p).isSome = false) →
        l.filter (fun y => (y.stampFor o p).isNone) = l := fun l hl =>
      List.filter_eq_self.2 fun z hz => Option.isNone_iff_eq_none.2 (Option.not_isSome_iff_eq_none.1 (by simp [hl z hz]))
    rw [hqueue, List.filter_append, List.filter_cons_of_neg (by rw [hst]; nofun),
      hkeep a fun z hz => hbeside z (List.mem_append_left b hz), hkeep b fun z hz => hbeside z (List.mem_append_right a hz)]
  have hmap : q.queue.map (fun y => if (y.stampFor o p).isSome then { y with heard := y.heard + 1 } else y) =
      a ++ { x with heard := x.heard + 1 } :: b := by
    have hkeep : ∀ l : List QItem, (∀ z ∈ l, (z.stampFor o p).isSome = false) →
        l.map (fun y => if (y.stampFor o p).isSome then { y with heard := y.heard + 1 } else y) = l := fun l hl =>
      (List.map_congr_left fun z hz => if_neg (by rw [hl z hz]; nofun)).trans (List.map_id l)
    rw [hqueue, List.map_append, List.map_cons, if_pos hsome,
      hkeep a fun z hz => hbeside z (List.mem_append_left b hz), hkeep b fun z hz => hbeside z (List.mem_append_right a hz)]
  unfold duplicateNotice
  simp only [hcov]
  rw [if_pos ⟨hrelay, hst, rfl⟩, hfilter, hmap]

/-! ## Correction checks (R137) -/

section Correct

variable {k : County} {e : Entry}

theorem holdoffOver_iff (c : Ctx) (e : Entry) :
    holdoffOver c e = true ↔ ¬ ∃ t, e.lastSent = some t ∧ since c.now t < c.cfg.holdoff := by
  unfold holdoffOver
  cases e.lastSent <;> simp

/-- The queue holds an item that covers the key at the entry's stamp. -/
theorem covering_bind_iff {q : List QItem} (hst : e.stamp ≠ none) : (covering q o p).bind (·.stampFor o p) = e.stamp ↔
    ∃ x, covering q o p = some x ∧ x.stampFor o p = e.stamp := by
  cases covering q o p with
  | none => simpa using hst.symm
  | some x => simp

theorem County.correct_none (h : findEntry k.view o p = none) : k.correct c o p = k := by
  simp only [County.correct, h]

theorem County.correct_some (h : findEntry k.view o p = some e) : k.correct c o p =
    if e.localOnly = false ∧ holdoffOver c e = true ∧ (covering k.queue o p).bind (·.stampFor o p) ≠ e.stamp then
      k.offer c ⟨.fault (e.item c), e.severity, .correction, 0, 0⟩
    else k := by
  simp only [County.correct, h]

theorem EntryState.toItem_eq (s : EntryState) :
    s.toItem = if s = .active then .active else if s = .inhibited then .inhibited else .cleared := by
  cases s <;> rfl

/-- The news of an entry, written out (R137, R138). -/
theorem Entry.item_eq (e : Entry) (c : Ctx) : e.item c = ⟨e.origin, e.point, e.stamp.getD ⟨0, 0⟩, e.kind, e.severity,
    if e.state = .active then .active else if e.state = .inhibited then .inhibited else .cleared, e.occurrences,
    e.age c.now, c.now, c.cfg.hopBudget, e.ack, e.affected⟩ := by
  unfold Entry.item
  rw [EntryState.toItem_eq]

end Correct

/-- Settles O38: the notice by the item that covers the key, the correction check by its conditions. -/
theorem noticesAndCorrections : Obligations.NoticesAndCorrections := by
  unfold Obligations.NoticesAndCorrections
  intro c k o p st
  refine ⟨fun a x b hqueue hq hst hrelay => ?_, fun h => ?_, County.correct_none, fun e he => ?_⟩
  · have hnotice := duplicateNotice_relay (c := c) (roll := k.roll) (view := k.view) hqueue hq hst hrelay
    refine ⟨fun hbelow => ?_, fun hlimit => ?_⟩
    · rw [if_neg (Nat.not_le.2 hbelow)] at hnotice
      exact congrArg (fun q : QueueSide => { k with toQueueSide := q }) hnotice
    · rw [if_pos hlimit] at hnotice
      exact congrArg (fun q : QueueSide => { k with toQueueSide := q }) hnotice
  · exact congrArg (fun q : QueueSide => { k with toQueueSide := q }) (duplicateNotice_none h [])
  · intro stands sentLately
    have hcorrect := County.correct_some (c := c) he
    refine ⟨fun h hst => ?_, fun s hs hlocal hlate hnot => ?_⟩
    · refine hcorrect.trans (if_neg fun ⟨hlocal, hover, hne⟩ => ?_)
      rcases h with h | h | h
      · rw [hlocal] at h
        nomatch h
      · exact (holdoffOver_iff c e).1 hover h
      · exact hne ((covering_bind_iff hst).2 h)
    · have hst : e.stamp ≠ none := by rw [hs]; nofun
      have hoffer := hcorrect.trans
        (if_pos ⟨hlocal, (holdoffOver_iff c e).2 hlate, fun h => hnot ((covering_bind_iff hst).1 h)⟩)
      rw [Entry.item_eq, hs] at hoffer
      exact hoffer

end Sys2Proof.Machine

/-! TRUNK ENABLE, TRUNK DISABLE and TRUNK FLUSH, and the resync pass (O34). -/

namespace Sys2Proof.Machine

variable {c : Ctx} {roll : Vector RollRecord 240} {view : List Entry} {x y : QItem} {q : QueueSide} {s : State}

/-! ## The resync pass (R135) -/

theorem afterChange_passes {after : QueueSide} (h : q.condensed = true ∧ (testCondensed c after).condensed = false ∨
    q.queue ≠ [] ∧ after.queue = []) :
    afterChange c roll view q after = resyncPass c roll view (testCondensed c after) := by
  refine if_pos ?_
  rw [testCondensed_queue]
  simpa [List.isEmpty_iff] using h

theorem afterChange_tests {after : QueueSide} (h : ¬ (q.condensed = true ∧ (testCondensed c after).condensed = false ∨
    q.queue ≠ [] ∧ after.queue = [])) : afterChange c roll view q after = testCondensed c after := by
  refine if_neg ?_
  rw [testCondensed_queue]
  simpa [List.isEmpty_iff] using h

/-- Outside condensed mode no resync pass follows an offer (R132, R135). -/
theorem offerItem_uncondensed (hc : q.condensed = false) : offerItem c roll view x q = offerCore c roll view x q := by
  have hflag : (offerTested c roll view x q).2 = false := by
    unfold offerTested
    split
    · split
      · rfl
      · split
        · rfl
        · rw [hc]
          rfl
    · rfl
  exact if_neg (by rw [hflag]; nofun)

/-- An offer in condensed mode whose removals leave it is followed by a resync pass (R132, R135; log 14). -/
theorem offerItem_leaves (hm : c.mode = .run) (hc : q.condensed = true) (ho : olderThanRoll c roll x.item = false)
    (hk : perKeyCheck view q.queue x = some y) {r : Placed} (hp : placeOffer c view y q = r)
    (hlow : (testAt c r.2 r.1).condensed = false) :
    offerItem c roll view x q = resyncPass c roll view (testCondensed c (testAt c r.2 r.1)) := by
  have htested : offerTested c roll view x q = (testCondensed c (testAt c r.2 r.1), true) := by
    unfold offerTested
    rw [if_pos hm, ho, hk]
    simp only [hp, hlow, hc]
    rfl
  unfold offerItem
  rw [htested]
  rfl

section Alive

variable {a b : List QItem} {start older : Half} {hop hop' : Nat}

/-- An own ALIVE taken as newer than the queued one, or of its start count, takes its place (R128). -/
theorem placeOffer_alive_once (hq : queueKeysOnce q.queue = true) (hqueue : q.queue = a ++ y :: b)
    (hx : x = ⟨.alive ⟨c.number, start, hop⟩, 1, .own, 0, 0⟩) (hy : y.item = .alive ⟨c.number, older, hop'⟩)
    (hfit : totalCharge (enqueue (a ++ b) { x with seq := q.nextSeq }) ≤ 2048) :
    placeOffer c view x q = (({ q with queue := enqueue (a ++ b) { x with seq := q.nextSeq }
                                       nextSeq := q.nextSeq + 1 } : QueueSide).count .itemsQueued, totalCharge (a ++ b)) := by
  have hst : y.stampFor c.number presencePoint = some ⟨older, 0⟩ := by
    simp [QItem.stampFor, hy, Item.stampAt]
  have hgone : (withoutKey view presencePoint y).toList = [] := by
    simp only [withoutKey, hy, Option.toList_none]
  have hrest : replaceKey view c.number presencePoint q.queue = a ++ b := by
    rw [hqueue] at hq ⊢
    rw [replaceKey_once hq (by rw [hst]; rfl), hgone, List.append_nil]
  have hplace : placeOffer c view x q = insertOffer c view x q := by
    rw [hx]
    unfold placeOffer
    rw [if_neg (by simp [condensedRefuses])]
    simp only [condensedMerge, ite_self]
  have hinsert : insertOffer c view x q = fitIn c x
      (enqueue (replaceKey view c.number presencePoint q.queue) { x with seq := q.nextSeq })
      (replaceKey view c.number presencePoint q.queue) { q with nextSeq := q.nextSeq + 1 } := by
    rw [hx]
    rfl
  rw [hplace, hinsert, hrest, fitIn_fits hfit, totalCharge_enqueue, Nat.add_sub_cancel_left, Nat.add_sub_cancel]

end Alive

/-! ## TRUNK ENABLE, TRUNK DISABLE, TRUNK FLUSH (R158 to R160) -/

theorem State.serveTrunkEnable_listen (hm : s.mode = .listen) : s.serveTrunkEnable = s.answer .wrongState [] := if_pos hm

theorem State.serveTrunkEnable_draining (hm : s.mode = .run) (he : s.trunk.enable = .draining) :
    s.serveTrunkEnable = s.answer .busy [] := by
  rw [State.serveTrunkEnable, if_neg (by rw [hm]; nofun), he]

theorem State.serveTrunkEnable_enabled (hm : s.mode = .run) (he : s.trunk.enable = .enabled) :
    s.serveTrunkEnable = s.answer .ok s.trunk.stateBytes := by
  rw [State.serveTrunkEnable, if_neg (by rw [hm]; nofun), he]

theorem State.serveTrunkEnable_disabled (hm : s.mode = .run) (he : s.trunk.enable = .disabled) : s.serveTrunkEnable =
    (State.settle { s with trunk := { s.trunk with enable := .enabled, access := .idle } }).answer .ok
      (State.settle { s with trunk := { s.trunk with enable := .enabled, access := .idle } }).trunk.stateBytes := by
  rw [State.serveTrunkEnable, if_neg (by rw [hm]; nofun), he]

theorem Trunk.disabled_drains {t : Trunk} (he : t.enable = .enabled) (ha : t.access = .keyup ∨ t.access = .send) :
    t.disabled = { t with enable := .draining } := by
  unfold Trunk.disabled
  rcases ha with ha | ha <;> rw [he, ha]

theorem Trunk.disabled_stops {t : Trunk} (he : t.enable = .enabled) (ha : t.access = .idle ∨ t.access = .defer) :
    t.disabled = { t with enable := .disabled, access := .off, count := 0, slot := none } := by
  unfold Trunk.disabled
  rcases ha with ha | ha <;> rw [he, ha]

theorem Trunk.disabled_same {t : Trunk} (he : t.enable ≠ .enabled) : t.disabled = t := by
  unfold Trunk.disabled
  cases h : t.enable with
  | enabled => exact absurd h he
  | draining => rfl
  | disabled => rfl

theorem exec_trunkDisable (hready : s.ready = true) : exec .trunkDisable s =
    .next (State.replied { s with trunk := s.trunk.disabled } 0x0F .ok s.trunk.disabled.stateBytes) :=
  exec_command_answered (r := .trunkDisable) (u := { s.taking with trunk := s.trunk.disabled }) hready rfl rfl rfl

/-- The codes of the enable state and the access state, written out (Table 11.3). -/
theorem Trunk.stateBytes_eq (t : Trunk) : t.stateBytes =
    [match t.enable with | .disabled => 0 | .enabled => 1 | .draining => 2,
      match t.access with | .off => 0 | .idle => 1 | .defer => 2 | .keyup => 3 | .send => 4] := by
  unfold Trunk.stateBytes
  cases t.enable <;> cases t.access <;> rfl

/-- Settles O34: the resync pass and when it is made; the three commands by the enable and access states. -/
theorem trunkEnableDisableFlush : Obligations.TrunkEnableDisableFlush := by
  unfold Obligations.TrunkEnableDisableFlush
  refine ⟨fun c roll view q after x => ?_, fun s hready hattention => ?_⟩
  · intro offered
    refine ⟨?_, ⟨afterChange_passes, afterChange_tests⟩, offerItem_uncondensed, ?_⟩
    · have hitem : ∀ e q, offerCore c roll view (resyncItem c e) { q with unsent := tset q.unsent e.point false } =
          offered q e := fun e q => by
        rw [resyncItem, Entry.item_eq]
      exact congrArg (fun f => List.foldl f q (view.filter fun e => e.own && tget q.unsent e.point false))
        (funext fun q => funext fun e => hitem e q)
    · intro a y b start older hop hop' hm hc hqueue hq hx hy hnew hoff hthresholds l hfit
      have hst : y.stampFor c.number presencePoint = some ⟨older, 0⟩ := by
        simp [QItem.stampFor, hy, Item.stampAt]
      have hcov : covering q.queue c.number presencePoint = some y := by
        rw [hqueue] at hq ⊢
        exact covering_of_once hq (by rw [hst]; rfl)
      have hfree : keyBlocked q.queue .own c.number presencePoint ⟨start, 0⟩ = false := by
        refine keyBlocked_false hcov hst ?_
        by_cases hsame : older = start
        · exact .inl ⟨by rw [hsame], nofun, nofun⟩
        · exact .inr ⟨fun h => hsame (congrArg Stamp.start h), hnew.resolve_left (Ne.symm hsame)⟩
      have hcheck : perKeyCheck view q.queue x = some x := by
        rw [hx]
        simp only [perKeyCheck, hfree]
        rfl
      have ho : olderThanRoll c roll x.item = false := by
        rw [hx]
        simp [olderThanRoll]
      have hplace := placeOffer_alive_once (c := c) (view := view) hq hqueue hx hy hfit
      have hlow : testAt c (totalCharge (a ++ b)) (({ q with queue := l, nextSeq := q.nextSeq + 1 } : QueueSide).count
          .itemsQueued) = ({ q with queue := l, nextSeq := q.nextSeq + 1, condensed := false } : QueueSide).count
          .itemsQueued := by
        unfold testAt
        rw [if_neg (by omega), if_pos hoff]
        rfl
      have hleaves := offerItem_leaves (roll := roll) hm hc ho hcheck hplace (by
        show (testAt c (totalCharge (a ++ b)) _).condensed = false
        rw [hlow]
        rfl)
      rw [hleaves]
      exact congrArg (fun r => resyncPass c roll view (testCondensed c r)) hlow
  · intro code acode both
    have hboth : ∀ t : Trunk, t.stateBytes = both t := Trunk.stateBytes_eq
    refine ⟨fun hm => ?_, fun hm he => ?_, fun hm he => ?_, fun hm he => ?_, fun he ha => ?_, fun he ha => ?_, fun he => ?_,
      fun he => ?_, fun he => ?_⟩
    · exact exec_command_answered (r := .trunkEnable) (u := s.taking) hready rfl (State.serveTrunkEnable_listen hm) rfl
    · exact exec_command_answered (r := .trunkEnable) (u := s.taking) hready rfl (State.serveTrunkEnable_draining hm he) rfl
    · have hexec := exec_command_answered (r := .trunkEnable) (u := s.taking) hready rfl
        (State.serveTrunkEnable_enabled (s := s.taking) hm he) rfl
      have hbytes : s.taking.trunk.stateBytes = [1, acode s.trunk.access] := by
        refine (hboth s.trunk).trans ?_
        show [code s.trunk.enable, acode s.trunk.access] = _
        rw [he]
      rw [hbytes] at hexec
      exact hexec
    · intro t
      have hexec := exec_command_answered (r := .trunkEnable)
        (u := State.settle { s.taking with trunk := { s.trunk with enable := .enabled, access := .idle } }) hready rfl
        (State.serveTrunkEnable_disabled (s := s.taking) hm he) rfl
      rw [hboth] at hexec
      exact hexec
    · intro t
      have hexec := exec_trunkDisable hready
      rw [Trunk.disabled_drains he ha, hboth] at hexec
      exact hexec
    · intro t
      have hexec := exec_trunkDisable hready
      rw [Trunk.disabled_stops he ha] at hexec
      exact hexec
    · have hexec := exec_trunkDisable hready
      rw [Trunk.disabled_same he, hboth] at hexec
      exact hexec
    · exact exec_command_answered (r := .trunkFlush) (u := s.taking) hready rfl (if_neg he) rfl
    · intro marks q
      refine ⟨fun p hp => markUnsent_iff s.ctx s.queue s.unsent hp, ?_, fun hnone => ?_⟩
      · have hserve : State.serve s.taking .trunkFlush = s.taking.flush.answer .ok
            (s.taking.flush.trunk.enable.code :: natHalfBytes (totalCharge s.taking.flush.queue)) := if_pos he
        have hexec := exec_command_answered (r := .trunkFlush) (u := s.taking.flush) hready rfl hserve rfl
        have hcode : s.taking.flush.trunk.enable.code = 0 := by
          show s.trunk.enable.code = 0
          rw [he]
          rfl
        rw [hcode] at hexec
        exact hexec
      · have hmarks : ∀ p, tget marks p false = false := fun p => by
          by_cases hp : p < 32
          · exact hnone p hp
          · exact tget_outside _ _ (Nat.not_lt.1 hp)
        exact congrArg QueueSide.queue (resyncPass_unmarked s.ctx s.roll s.view
          (q := { s.toQueueSide with queue := [], condensed := false, unsent := marks }) hmarks)

end Sys2Proof.Machine

/-! SLOT_EXPIRY, KEYUP_DELAY_EXPIRY and SEND_COMPLETE (O30). -/

namespace Sys2Proof.Machine

variable {c : Ctx} {s : State}

/-! ## The last sent time of what a bulletin takes (R86, R156) -/

/-- A taken item sets the last sent time of the entry. -/
def QItem.Tells (c : Ctx) (x : QItem) (e : Entry) : Prop :=
  setsLastSent c x = true ∧ e.origin = x.item.origin ∧ e.point ∈ x.item.points

open Classical in
/-- An entry after the items `part` have been taken. -/
noncomputable def sentEntry (c : Ctx) (part : List QItem) (e : Entry) : Entry :=
  if ∃ x ∈ part, x.Tells c e then { e with lastSent := some c.now } else e

theorem sentEntry_nil (c : Ctx) (e : Entry) : sentEntry c [] e = e := if_neg fun ⟨_, hx, _⟩ => List.not_mem_nil hx

theorem sentEntry_key (c : Ctx) (part : List QItem) (e : Entry) :
    (sentEntry c part e).origin = e.origin ∧ (sentEntry c part e).point = e.point := by
  unfold sentEntry
  split <;> exact ⟨rfl, rfl⟩

theorem sentEntry_calls (c : Ctx) (part : List QItem) (e : Entry) (level : Nat) :
    (sentEntry c part e).calls level = e.calls level := by
  unfold sentEntry
  split <;> rfl

theorem sentEntry_cons (c : Ctx) (x : QItem) (part : List QItem) (e : Entry) :
    sentEntry c part (sentEntry c [x] e) = sentEntry c (x :: part) e := by
  have hsame : ∀ y : QItem, y.Tells c (sentEntry c [x] e) ↔ y.Tells c e := fun y => by
    obtain ⟨ho, hp⟩ := sentEntry_key c [x] e
    unfold QItem.Tells
    rw [ho, hp]
  by_cases hx : x.Tells c e
  · have hone : sentEntry c [x] e = { e with lastSent := some c.now } := if_pos ⟨x, List.mem_singleton_self x, hx⟩
    have hall : sentEntry c (x :: part) e = { e with lastSent := some c.now } := if_pos ⟨x, List.mem_cons_self, hx⟩
    rw [hone, hall]
    unfold sentEntry
    split <;> rfl
  · have hone : sentEntry c [x] e = e := if_neg fun ⟨y, hy, htells⟩ => hx (List.mem_singleton.1 hy ▸ htells)
    rw [hone]
    have hiff : (∃ y ∈ x :: part, y.Tells c e) ↔ ∃ y ∈ part, y.Tells c e := by
      simp only [List.mem_cons, exists_eq_or_imp, hx, false_or]
    classical exact if_congr hiff.symm rfl rfl

theorem markSent_eq (c : Ctx) (x : QItem) (v : List Entry) : markSent c x v = v.map (sentEntry c [x]) := by
  classical
  have hpoints : ∀ (ps : List Nat) (v : List Entry),
      ps.foldl (fun v p => updateEntry v x.item.origin p fun e => { e with lastSent := some c.now }) v =
        v.map fun e => if e.origin = x.item.origin ∧ e.point ∈ ps then { e with lastSent := some c.now } else e := fun ps => by
    induction ps with
    | nil => exact fun v => by simp
    | cons p ps ih =>
      intro v
      rw [List.foldl_cons, ih, updateEntry, List.map_map]
      refine List.map_congr_left fun e _ => ?_
      simp only [Function.comp, List.mem_cons]
      by_cases hkey : e.hasKey x.item.origin p = true
      · obtain ⟨ho, hp⟩ := (e.hasKey_iff _ _).1 hkey
        rw [if_pos hkey, if_pos (show e.origin = x.item.origin ∧ (e.point = p ∨ e.point ∈ ps) from ⟨ho, .inl hp⟩)]
        split <;> rfl
      · rw [if_neg hkey]
        have hsame : (e.origin = x.item.origin ∧ (e.point = p ∨ e.point ∈ ps)) ↔
            e.origin = x.item.origin ∧ e.point ∈ ps := by
          rw [e.hasKey_iff] at hkey
          tauto
        simp only [hsame]
  unfold markSent
  by_cases hsets : setsLastSent c x = true
  · rw [if_pos hsets, hpoints]
    refine List.map_congr_left fun e _ => ?_
    simp only [sentEntry, List.mem_singleton, exists_eq_left, QItem.Tells, hsets, true_and]
  · rw [if_neg hsets]
    refine ((List.map_congr_left fun e _ => ?_).trans (List.map_id v)).symm
    exact if_neg fun ⟨y, hy, htells⟩ => hsets (List.mem_singleton.1 hy ▸ htells.1)

/-! ## The items a bulletin takes (R145, R156) -/

theorem County.takeItem_head {k : County} {x : QItem} {q : List QItem} {limit : Nat} (hq : k.queue = x :: q)
    (hseq : x.seq < limit) (hmarks : ∀ p, tget k.unsent p false = false) : ∃ condensed, k.takeItem c limit x =
      { k with queue := q, condensed := condensed, view := k.view.map (sentEntry c [x]) } := by
  have hleft : (k.queue.eraseP fun y => decide (y.seq < limit)) = q := by
    rw [hq, List.eraseP_cons_of_pos (by simpa using hseq)]
  have htake : k.takeItem c limit x = { k with
      view := markSent c x k.view
      toQueueSide := afterChange c k.roll (markSent c x k.view) k.toQueueSide { k.toQueueSide with
        queue := k.queue.eraseP fun y => decide (y.seq < limit) } } := rfl
  rw [htake, hleft, afterChange_unmarked (r := { k.toQueueSide with queue := q }) hmarks, markSent_eq, testCondensed_eq]
  exact ⟨_, rfl⟩

/-- What an assembly takes, where every queued item stood before it and no mark stands. -/
theorem County.takeItems_eq (c : Ctx) (limit n : Nat) : ∀ (used : Nat) (k : County) (taken : List Item),
    (∀ x ∈ k.queue, x.seq < limit) → (∀ p, tget k.unsent p false = false) →
    ∃ condensed, County.takeItems c limit n used k taken =
      ({ k with queue := k.queue.drop (bulletinPart n used k.queue).length, condensed := condensed
                view := k.view.map (sentEntry c (bulletinPart n used k.queue)) },
        taken ++ (bulletinPart n used k.queue).map (·.item)) := by
  have hnothing : ∀ (k : County) (taken : List Item), ∃ condensed, (k, taken) =
      (({ k with queue := k.queue.drop ([] : List QItem).length, condensed := condensed
                 view := k.view.map (sentEntry c []) } : County), taken ++ ([] : List QItem).map (·.item)) := fun k taken => by
    refine ⟨k.condensed, ?_⟩
    have hview : k.view.map (sentEntry c []) = k.view :=
      (List.map_congr_left fun e _ => sentEntry_nil c e).trans (List.map_id k.view)
    rw [hview, List.map_nil, List.append_nil]
    rfl
  induction n with
  | zero => exact fun _ k taken _ _ => hnothing k taken
  | succ n ih =>
    intro used k taken hseq hmarks
    cases hq : k.queue with
    | nil =>
      have hstop : County.takeItems c limit (n + 1) used k taken = (k, taken) := by
        simp only [County.takeItems, hq, List.find?_nil]
      have hsame := hnothing k taken
      rw [hq] at hsame
      rw [hstop]
      exact hsame
    | cons x q =>
      have hx : x.seq < limit := hseq x (hq ▸ List.mem_cons_self)
      have hhead : (k.queue.find? fun y => decide (y.seq < limit)) = some x := by
        rw [hq, List.find?_cons_of_pos (by simpa using hx)]
      by_cases hfit : used + x.item.size ≤ 236
      · obtain ⟨condensed, htake⟩ := County.takeItem_head (c := c) hq hx hmarks
        have hstep : County.takeItems c limit (n + 1) used k taken =
            County.takeItems c limit n (used + x.item.size) (k.takeItem c limit x) (taken ++ [x.item]) := by
          simp only [County.takeItems, hhead]
          exact if_pos hfit
        obtain ⟨last, hrest⟩ := ih (used + x.item.size) (k.takeItem c limit x) (taken ++ [x.item])
          (by
            rw [htake]
            exact fun y hy => hseq y (hq ▸ List.mem_cons_of_mem x hy))
          (by
            rw [htake]
            exact hmarks)
        have hpart : bulletinPart (n + 1) used (x :: q) = x :: bulletinPart n (used + x.item.size) q := if_pos hfit
        have hviews : (k.view.map (sentEntry c [x])).map (sentEntry c (bulletinPart n (used + x.item.size) q)) =
            k.view.map (sentEntry c (x :: bulletinPart n (used + x.item.size) q)) := by
          rw [List.map_map]
          exact List.map_congr_left fun e _ => sentEntry_cons c x _ e
        refine ⟨last, ?_⟩
        rw [htake] at hrest hstep
        rw [hstep, hrest, hpart, hviews, List.append_assoc]
        rfl
      · have hstop : County.takeItems c limit (n + 1) used k taken = (k, taken) := by
          simp only [County.takeItems, hhead]
          exact if_neg hfit
        have hpart : bulletinPart (n + 1) used (x :: q) = [] := if_neg hfit
        have hsame := hnothing k taken
        rw [hq] at hsame
        rw [hstop, hpart]
        exact hsame

/-! ## Slots, key-up, the end of sending (R155 to R158) -/

theorem exec_slotExpiry (ha : s.trunk.access = .defer) (hslot : s.trunk.slot.isSome = true) : exec .slotExpiry s =
    if 1 < s.trunk.count then
      .next { s with trunk := { s.trunk with count := s.trunk.count - 1, slot := some s.clock } }
    else if s.queue.isEmpty then
      .next { s with trunk := { s.trunk with access := .idle, count := 0, slot := none } }
    else .next s.keyUp.settle := by
  simp only [exec, execSlotExpiry]
  rw [if_pos ⟨ha, hslot⟩]

theorem exec_sendComplete (ha : s.trunk.access = .send) : exec .sendComplete s = .next (State.settle
    { s.count .bulletinsSent with trunk :=
      if s.trunk.enable = .enabled then { s.trunk with access := .idle, bulletin := none, since := none }
      else { s.trunk with access := .off, enable := .disabled, bulletin := none, since := none } }) := by
  simp only [exec, execSendComplete]
  rw [if_pos ha]
  split <;> rfl

theorem attentionCondition_sent (c : Ctx) (part : List QItem) (v : List Entry) (level : Nat) :
    attentionCondition (v.map (sentEntry c part)) level = attentionCondition v level := by
  unfold attentionCondition
  rw [List.any_map]
  exact congrArg (fun f => List.any v f) (funext fun e => sentEntry_calls c part e level)

theorem bulletinPart_ne_nil {q : List QItem} (hq : q ≠ []) (hsize : ∀ x ∈ q, x.item.size ≤ 48) :
    bulletinPart 12 0 q ≠ [] := by
  cases q with
  | nil => exact absurd rfl hq
  | cons x q =>
    have hx := hsize x List.mem_cons_self
    rw [bulletinPart, if_pos (by omega)]
    exact List.cons_ne_nil x _

/-- Settles O30: the assembly as `County.takeItems_eq` gives it; the other events by their definitions. -/
theorem slotKeyUpSend : Obligations.SlotKeyUpSend := by
  unfold Obligations.SlotKeyUpSend
  refine ⟨fun s ha hslot => ⟨fun hcount => ?_, fun hcount hq => ?_, fun hcount hq hitems hmarks hattention => ?_⟩,
    fun s => ⟨fun ha => if_pos ha, fun ha he => ?_, fun ha he hattention => ?_, fun ha => ?_⟩⟩
  · rw [exec_slotExpiry ha hslot, if_pos hcount]
  · rw [exec_slotExpiry ha hslot, if_neg (by omega), if_pos (by rw [hq]; rfl)]
  · intro part body tells
    have hexec := exec_slotExpiry ha hslot
    rw [if_neg (by omega), if_neg (by rw [List.isEmpty_iff]; exact hq)] at hexec
    obtain ⟨condensed, htaken⟩ := County.takeItems_eq s.ctx s.nextSeq 12 0 s.toCounty [] (fun x hx => (hitems x hx).1) hmarks
    have hkeyUp : s.keyUp = { s with
        queue := s.queue.drop part.length, condensed := condensed, view := s.view.map (sentEntry s.ctx part)
        trunk := { s.trunk with
          access := if s.cfg.keyUpDelay = 0 then .send else .keyup, count := 0, slot := none, rx := none
          bulletin := some (bulletinFrame body), since := some s.clock } } := by
      unfold State.keyUp
      rw [show bulletinItems = 12 from rfl, htaken]
      rfl
    have hsettle : s.keyUp.settle = s.keyUp := by
      have hok : s.keyUp.attentionOk = true := by
        rw [State.attentionOk_iff] at hattention ⊢
        rw [hkeyUp]
        exact hattention.trans (attentionCondition_sent s.ctx part s.view s.level).symm
      have haccess : s.keyUp.trunk.access = .off ∨ s.keyUp.trunk.access = .keyup ∨ s.keyUp.trunk.access = .send := by
        rw [hkeyUp]
        show (if s.cfg.keyUpDelay = 0 then AccessState.send else .keyup) = .off ∨
          (if s.cfg.keyUpDelay = 0 then AccessState.send else .keyup) = .keyup ∨
            (if s.cfg.keyUpDelay = 0 then AccessState.send else .keyup) = .send
        split
        · exact .inr (.inr rfl)
        · exact .inr (.inl rfl)
      rw [State.settle_of_attentionOk hok, Trunk.settled_elsewhere haccess]
    rw [hsettle, hkeyUp] at hexec
    have hfind : ∀ o p, findEntry (s.view.map (sentEntry s.ctx part)) o p = (findEntry s.view o p).map (sentEntry s.ctx part) :=
      findEntry_map fun e _ => sentEntry_key s.ctx part e
    refine ⟨_, hexec, bulletinPart_ne_nil hq fun x hx => (hitems x hx).2, rfl, rfl, fun o p h => ?_, fun o p e h => ⟨?_, ?_⟩, rfl⟩
    · exact (hfind o p).trans (by rw [h]; rfl)
    · exact fun htells => (hfind o p).trans (by rw [h]; exact congrArg some (if_pos htells))
    · exact fun htells => (hfind o p).trans (by rw [h]; exact congrArg some (if_neg htells))
  · rw [exec_sendComplete ha, if_pos he]
  · rw [exec_sendComplete ha, if_neg (by rw [he]; nofun), State.settle_of_attentionOk
      (s := { s.count .bulletinsSent with
        trunk := { s.trunk with access := .off, enable := .disabled, bulletin := none, since := none } }) hattention]
    rfl
  · have hnot : s.trunk.access ≠ .keyup ∧ s.trunk.access ≠ .send := by
      rcases ha with h | h | h <;> rw [h] <;> exact ⟨nofun, nofun⟩
    exact ⟨if_neg hnot.1, if_neg hnot.2⟩

end Sys2Proof.Machine

/-! The wire form of bulletins: what a station lays out parses back, and each malformed form parses to nothing (O31). -/

namespace Sys2Proof.Machine

variable {now sent heard : Time} {rest : List Byte} {x : Item × List Byte}

/-! ## Bytes of the wire form read back (Table 9.3) -/

theorem halfOf_natHalfBytes {n : Nat} (h : n < 65536) :
    (halfOf ((BitVec.ofNat 16 n).setWidth 8) ((BitVec.ofNat 16 n >>> 8).setWidth 8)).toNat = n := by
  rw [halfOf_halfBytes, BitVec.toNat_ofNat, Nat.mod_eq_of_lt h]

theorem ageAt_lt (now : Time) (age : Nat) (asOf : Time) : ageAt now age asOf < 65536 := by
  unfold ageAt
  omega

theorem stationNumber_iff (n : Nat) : stationNumber n = true ↔ 1 ≤ n ∧ n ≤ 240 := decide_eq_true_iff

theorem stationOk_byteOf {n : Nat} (h : stationNumber n = true) : stationOk (byteOf n) = true ∧ (byteOf n).toNat = n := by
  obtain ⟨h1, h240⟩ := (stationNumber_iff n).1 h
  have hn := byteOf_toNat (n := n) (by omega)
  exact ⟨(stationOk_iff _).2 (by omega), hn⟩

theorem pointOk_byteOf {n : Nat} (h : n ≤ 31) : pointOk (byteOf n) = true ∧ (byteOf n).toNat = n := by
  have hn := byteOf_toNat (n := n) (by omega)
  exact ⟨(pointOk_iff _).2 (by omega), hn⟩

theorem itemKind_byteOf {k : Kind} (h : k ≠ .stationSilent) : itemKind (byteOf k.code) = some k := by
  cases k <;> first | rfl | exact absurd rfl h

theorem itemKind_none {b : Byte} (h : b.toNat = 0 ∨ 17 < b.toNat) : itemKind b = none := by
  unfold itemKind
  split
  · rfl
  · rename_i hne
    unfold Kind.ofCode
    split <;> first | omega | rfl

theorem sevHopByte_toNat {severity hop : Nat} (hs : severity ≤ 7) (hh : hop ≤ 7) :
    (sevHopByte severity hop).toNat = severity + 8 * hop := byteOf_toNat (by omega)

theorem itemSeverity_sevHopByte {severity hop : Nat} (h1 : 1 ≤ severity) (h7 : severity ≤ 7) (hh : hop ≤ 7) :
    itemSeverity (sevHopByte severity hop) = some severity := by
  unfold itemSeverity
  rw [sevHopByte_toNat h7 hh, if_neg (by omega)]
  exact congrArg some (by omega)

theorem itemHop_sevHopByte {severity hop : Nat} (h7 : severity ≤ 7) (hh : hop ≤ 7) :
    itemHop (sevHopByte severity hop) = hop := by
  unfold itemHop
  rw [sevHopByte_toNat h7 hh]
  omega

theorem stateByte_spec (st : ItemState) (ack affected : Bool) :
    ItemState.ofCode ((stateByte st ack affected).toNat % 4) = some st ∧ (stateByte st ack affected).getLsbD 2 = ack ∧
      (stateByte st ack affected).getLsbD 3 = affected := by
  cases st <;> cases ack <;> cases affected <;> decide

/-! ## The parts of an item (R151) -/

theorem parseAckPart_ackBytes {ack : Option Ack} (h : ∀ a, ack = some a → stationNumber a.station = true)
    (rest : List Byte) : parseAckPart ack.isSome (ackBytes ack ++ rest) = some (ack, rest) := by
  cases ack with
  | none => rfl
  | some a =>
    obtain ⟨hok, hn⟩ := stationOk_byteOf (h a rfl)
    show (if stationOk (byteOf a.station) then some (some (⟨(byteOf a.station).toNat, a.operator⟩ : Ack), rest) else none) = _
    rw [if_pos hok, hn]

theorem parseAffected_affectedBytes {affected : Option Nat} (h : ∀ n, affected = some n → n ≤ 16) (rest : List Byte) :
    parseAffected affected.isSome (affectedBytes affected ++ rest) = some (affected, rest) := by
  cases affected with
  | none => rfl
  | some n =>
    have hn := byteOf_toNat (n := n) (by have := h n rfl; omega)
    show (if (byteOf n).toNat ≤ 16 then some (some (byteOf n).toNat, rest) else none) = _
    rw [hn, if_pos (h n rfl)]

theorem parsePoints_pointBytes : ∀ {points : List CompactPoint}, (∀ z ∈ points, z.point ≤ 31) → ∀ rest : List Byte,
    parsePoints heard points.length (points.flatMap (pointBytes sent) ++ rest) =
      some (points.map (fun z => { z with age := ageAt sent z.age z.asOf, asOf := heard }), rest)
  | [], _, rest => rfl
  | z :: points, h, rest => by
    obtain ⟨hok, hn⟩ := pointOk_byteOf (h z List.mem_cons_self)
    have ih := parsePoints_pointBytes (fun w hw => h w (List.mem_cons_of_mem z hw)) rest
    have hbytes : (z :: points).flatMap (pointBytes sent) ++ rest =
        byteOf z.point :: (z.change.setWidth 8) :: ((z.change >>> 8).setWidth 8) ::
          ((BitVec.ofNat 16 (ageAt sent z.age z.asOf)).setWidth 8) ::
          ((BitVec.ofNat 16 (ageAt sent z.age z.asOf) >>> 8).setWidth 8) ::
          (points.flatMap (pointBytes sent) ++ rest) := rfl
    rw [hbytes, List.length_cons, parsePoints, if_pos hok, ih]
    simp only [halfOf_natHalfBytes (ageAt_lt sent z.age z.asOf)]
    rw [hn, halfOf_halfBytes]
    rfl

/-! ## One item (R147, R151) -/

theorem parseItem_one (now : Time) (bs : List Byte) : parseItem now (0x01 :: bs) = parseFault now bs := rfl
theorem parseItem_two (now : Time) (bs : List Byte) : parseItem now (0x02 :: bs) = parseAckItem bs := rfl
theorem parseItem_three (now : Time) (bs : List Byte) : parseItem now (0x03 :: bs) = parseCompact now bs := rfl
theorem parseItem_four (now : Time) (bs : List Byte) : parseItem now (0x04 :: bs) = parseAlive bs := rfl

/-- When a FAULT parses, and to what. -/
theorem parseFault_iff (o p s0 s1 c0 c1 k sh st occ a0 a1 : Byte) :
    parseFault now (o :: p :: s0 :: s1 :: c0 :: c1 :: k :: sh :: st :: occ :: a0 :: a1 :: rest) = some x ↔
      (stationOk o = true ∧ pointOk p = true) ∧ ∃ kind sev state, (itemKind k = some kind ∧ itemSeverity sh = some sev ∧
        ItemState.ofCode (st.toNat % 4) = some state) ∧ ∃ ack r, parseAckPart (st.getLsbD 2) rest = some (ack, r) ∧
        ∃ aff r', parseAffected (st.getLsbD 3) r = some (aff, r') ∧
        x = (.fault ⟨o.toNat, p.toNat, ⟨halfOf s0 s1, halfOf c0 c1⟩, kind, sev, state, occ.toNat,
          (halfOf a0 a1).toNat, now, itemHop sh, ack, aff⟩, r') := by
  constructor
  · intro h
    simp only [parseFault] at h
    split at h
    · rename_i hok
      split at h
      · rename_i kind sev state hkind hsev hstate
        split at h
        · nomatch h
        · rename_i ack r hack
          split at h
          · nomatch h
          · rename_i aff r' haff
            exact ⟨(Bool.and_eq_true_iff).1 hok, kind, sev, state, ⟨hkind, hsev, hstate⟩, ack, r, hack, aff, r', haff,
              (Option.some.inj h).symm⟩
      · nomatch h
    · nomatch h
  · rintro ⟨hok, kind, sev, state, ⟨hkind, hsev, hstate⟩, ack, r, hack, aff, r', haff, rfl⟩
    simp only [parseFault, (Bool.and_eq_true_iff).2 hok, if_true, hkind, hsev, hstate, hack, haff]

/-- When an ACK parses, and to what. -/
theorem parseAckItem_iff (o p s0 s1 c0 c1 st op hop : Byte) :
    parseAckItem (o :: p :: s0 :: s1 :: c0 :: c1 :: st :: op :: hop :: rest) = some x ↔
      (stationOk o = true ∧ pointOk p = true ∧ stationOk st = true ∧ hop.toNat ≤ 7) ∧
        x = (.ack ⟨o.toNat, p.toNat, ⟨halfOf s0 s1, halfOf c0 c1⟩, ⟨st.toNat, op⟩, hop.toNat⟩, rest) := by
  simp only [parseAckItem, Option.ite_none_right_eq_some, Bool.and_eq_true, decide_eq_true_eq, Option.some.injEq, and_assoc,
    eq_comm (a := x)]

/-- When a COMPACT parses, and to what. -/
theorem parseCompact_iff (o s0 s1 k sh st n : Byte) :
    parseCompact now (o :: s0 :: s1 :: k :: sh :: st :: n :: rest) = some x ↔
      (stationOk o = true ∧ 2 ≤ n.toNat ∧ n.toNat ≤ 8) ∧ ∃ kind sev state, (itemKind k = some kind ∧
        itemSeverity sh = some sev ∧ ItemState.ofCode (st.toNat % 4) = some state) ∧
        ∃ xs r, parsePoints now n.toNat rest = some (xs, r) ∧ noTwice (xs.map (·.point)) = true ∧
        x = (.compact ⟨o.toNat, halfOf s0 s1, kind, sev, state, itemHop sh, xs⟩, r) := by
  constructor
  · intro h
    simp only [parseCompact] at h
    split at h
    · rename_i hok
      rw [Bool.and_eq_true_iff, decide_eq_true_iff] at hok
      split at h
      · rename_i kind sev state hkind hsev hstate
        split at h
        · nomatch h
        · rename_i xs r hxs
          split at h
          · rename_i htwice
            exact ⟨hok, kind, sev, state, ⟨hkind, hsev, hstate⟩, xs, r, hxs, htwice, (Option.some.inj h).symm⟩
          · nomatch h
      · nomatch h
    · nomatch h
  · rintro ⟨⟨ho, h2, h8⟩, kind, sev, state, ⟨hkind, hsev, hstate⟩, xs, r, hxs, htwice, rfl⟩
    simp only [parseCompact, ho, decide_eq_true (And.intro h2 h8), Bool.and_self, if_true, hkind, hsev, hstate, hxs, htwice]

/-- When an ALIVE parses, and to what. -/
theorem parseAlive_iff (o p s0 s1 hop sev : Byte) :
    parseAlive (o :: p :: s0 :: s1 :: hop :: sev :: rest) = some x ↔
      (stationOk o = true ∧ p.toNat = presencePoint ∧ hop.toNat ≤ 7 ∧ sev.toNat = 1) ∧
        x = (.alive ⟨o.toNat, halfOf s0 s1, hop.toNat⟩, rest) := by
  simp only [parseAlive, Option.ite_none_right_eq_some, Bool.and_eq_true, decide_eq_true_eq, Option.some.injEq, and_assoc,
    eq_comm (a := x)]

/-- An item as laid out parses to what its hearer takes, and to the bytes behind it. -/
theorem parseItem_itemBytes {i : Item} (h : i.sendable = true) (rest : List Byte) :
    parseItem heard (itemBytes sent i ++ rest) = some (i.asHeard sent heard, rest) := by
  cases i with
  | fault f =>
    simp only [Item.sendable, Bool.and_eq_true, decide_eq_true_eq, Option.all_eq_true] at h
    obtain ⟨⟨⟨horigin, hpoint, hkind, hs1, hs7, hhop, hocc⟩, hack⟩, haff⟩ := h
    obtain ⟨hok, ho⟩ := stationOk_byteOf horigin
    obtain ⟨hpok, hp⟩ := pointOk_byteOf hpoint
    obtain ⟨hcode, hbit2, hbit3⟩ := stateByte_spec f.state f.ack.isSome f.affected.isSome
    have hbytes : itemBytes sent (.fault f) ++ rest = 0x01 :: byteOf f.origin :: byteOf f.point ::
        (f.stamp.start.setWidth 8) :: ((f.stamp.start >>> 8).setWidth 8) ::
        (f.stamp.change.setWidth 8) :: ((f.stamp.change >>> 8).setWidth 8) ::
        byteOf f.kind.code :: sevHopByte f.severity f.hop :: stateByte f.state f.ack.isSome f.affected.isSome ::
        byteOf f.occurrences :: ((BitVec.ofNat 16 (ageAt sent f.age f.asOf)).setWidth 8) ::
        ((BitVec.ofNat 16 (ageAt sent f.age f.asOf) >>> 8).setWidth 8) ::
        (ackBytes f.ack ++ (affectedBytes f.affected ++ rest)) := by
      simp only [itemBytes, halfBytes, natHalfBytes, List.cons_append, List.nil_append, List.append_assoc]
    rw [hbytes, parseItem_one, parseFault_iff]
    refine ⟨⟨hok, hpok⟩, f.kind, f.severity, f.state, ⟨itemKind_byteOf hkind, itemSeverity_sevHopByte hs1 hs7 hhop, hcode⟩,
      f.ack, affectedBytes f.affected ++ rest, ?_, f.affected, rest, ?_, ?_⟩
    · rw [hbit2]
      exact parseAckPart_ackBytes hack _
    · rw [hbit3]
      exact parseAffected_affectedBytes haff rest
    · rw [ho, hp, halfOf_halfBytes, halfOf_halfBytes, halfOf_natHalfBytes (ageAt_lt ..), itemHop_sevHopByte hs7 hhop,
        byteOf_toNat (by omega)]
      rfl
  | ack a =>
    simp only [Item.sendable, Bool.and_eq_true, decide_eq_true_eq] at h
    obtain ⟨⟨horigin, hpoint, hhop⟩, hstation⟩ := h
    obtain ⟨hok, ho⟩ := stationOk_byteOf horigin
    obtain ⟨hpok, hp⟩ := pointOk_byteOf hpoint
    obtain ⟨hsok, hst⟩ := stationOk_byteOf hstation
    have hh := byteOf_toNat (n := a.hop) (by omega)
    have hbytes : itemBytes sent (.ack a) ++ rest = 0x02 :: byteOf a.origin :: byteOf a.point ::
        (a.stamp.start.setWidth 8) :: ((a.stamp.start >>> 8).setWidth 8) ::
        (a.stamp.change.setWidth 8) :: ((a.stamp.change >>> 8).setWidth 8) ::
        byteOf a.ack.station :: a.ack.operator :: byteOf a.hop :: rest := rfl
    rw [hbytes, parseItem_two, parseAckItem_iff]
    refine ⟨⟨hok, hpok, hsok, by omega⟩, ?_⟩
    rw [ho, hp, hst, hh, halfOf_halfBytes, halfOf_halfBytes]
    rfl
  | compact n =>
    simp only [Item.sendable, Bool.and_eq_true, decide_eq_true_eq, List.all_eq_true] at h
    obtain ⟨⟨⟨horigin, hkind, hs1, hs7, hhop, h2, h8⟩, hpoints⟩, htwice⟩ := h
    obtain ⟨hok, ho⟩ := stationOk_byteOf horigin
    have hn := byteOf_toNat (n := n.points.length) (by omega)
    have hbytes : itemBytes sent (.compact n) ++ rest = 0x03 :: byteOf n.origin ::
        (n.start.setWidth 8) :: ((n.start >>> 8).setWidth 8) :: byteOf n.kind.code :: sevHopByte n.severity n.hop ::
        stateByte n.state false false :: byteOf n.points.length :: (n.points.flatMap (pointBytes sent) ++ rest) := rfl
    rw [hbytes, parseItem_three, parseCompact_iff, hn]
    refine ⟨⟨hok, h2, h8⟩, n.kind, n.severity, n.state, ⟨itemKind_byteOf hkind, itemSeverity_sevHopByte hs1 hs7 hhop,
      (stateByte_spec n.state false false).1⟩, _, _, parsePoints_pointBytes hpoints rest, ?_, ?_⟩
    · rw [List.map_map]
      exact htwice
    · rw [ho, halfOf_halfBytes, itemHop_sevHopByte hs7 hhop]
      rfl
  | alive a =>
    simp only [Item.sendable, Bool.and_eq_true, decide_eq_true_eq] at h
    obtain ⟨horigin, hhop⟩ := h
    obtain ⟨hok, ho⟩ := stationOk_byteOf horigin
    have hh := byteOf_toNat (n := a.hop) (by omega)
    have hbytes : itemBytes sent (.alive a) ++ rest = 0x04 :: byteOf a.origin :: byteOf presencePoint ::
        (a.start.setWidth 8) :: ((a.start >>> 8).setWidth 8) :: byteOf a.hop :: 0x01 :: rest := rfl
    rw [hbytes, parseItem_four, parseAlive_iff]
    refine ⟨⟨hok, rfl, by omega, rfl⟩, ?_⟩
    rw [ho, hh, halfOf_halfBytes]
    rfl

/-! ## An item cut short (R151) -/

/-- The parse of an item does not look behind it: bytes that parse with more behind them parse the same. -/
theorem parseAckPart_append {present : Bool} {bs r : List Byte} {ack : Option Ack}
    (h : parseAckPart present bs = some (ack, r)) (more : List Byte) :
    parseAckPart present (bs ++ more) = some (ack, r ++ more) := by
  cases present with
  | false =>
    cases h
    rfl
  | true =>
    match bs, h with
    | st :: op :: tail, h =>
      simp only [parseAckPart, if_true, Option.ite_none_right_eq_some, Option.some.injEq, Prod.mk.injEq] at h
      obtain ⟨hok, rfl, rfl⟩ := h
      exact if_pos hok

theorem parseAffected_append {present : Bool} {bs r : List Byte} {aff : Option Nat}
    (h : parseAffected present bs = some (aff, r)) (more : List Byte) :
    parseAffected present (bs ++ more) = some (aff, r ++ more) := by
  cases present with
  | false =>
    cases h
    rfl
  | true =>
    match bs, h with
    | n :: tail, h =>
      simp only [parseAffected, if_true, Option.ite_none_right_eq_some, Option.some.injEq, Prod.mk.injEq] at h
      obtain ⟨hok, rfl, rfl⟩ := h
      exact if_pos hok

theorem parsePoints_append : ∀ {n : Nat} {bs r : List Byte} {xs : List CompactPoint},
    parsePoints now n bs = some (xs, r) → ∀ more, parsePoints now n (bs ++ more) = some (xs, r ++ more)
  | 0, bs, r, xs, h, more => by
    cases h
    rfl
  | n + 1, p :: c0 :: c1 :: a0 :: a1 :: tail, r, xs, h, more => by
    rw [parsePoints, Option.ite_none_right_eq_some] at h
    obtain ⟨hok, h⟩ := h
    cases hrest : parsePoints now n tail with
    | none =>
      rw [hrest] at h
      nomatch h
    | some y =>
      rw [hrest] at h
      simp only [Option.some.injEq, Prod.mk.injEq] at h
      obtain ⟨rfl, rfl⟩ := h
      have ih := parsePoints_append (xs := y.1) (r := y.2) hrest more
      simp only [List.cons_append, parsePoints, hok, if_true, ih]

theorem parseFault_append {bs r : List Byte} {i : Item} (h : parseFault now bs = some (i, r)) (more : List Byte) :
    parseFault now (bs ++ more) = some (i, r ++ more) := by
  match bs, h with
  | o :: p :: s0 :: s1 :: c0 :: c1 :: k :: sh :: st :: occ :: a0 :: a1 :: tail, h =>
    obtain ⟨hok, kind, sev, state, hcodes, ack, r1, hack, aff, r2, haff, heq⟩ := (parseFault_iff ..).1 h
    obtain ⟨rfl, rfl⟩ := Prod.mk.inj heq
    exact (parseFault_iff ..).2 ⟨hok, kind, sev, state, hcodes, ack, r1 ++ more, parseAckPart_append hack more, aff,
      r ++ more, parseAffected_append haff more, rfl⟩

theorem parseAckItem_append {bs r : List Byte} {i : Item} (h : parseAckItem bs = some (i, r)) (more : List Byte) :
    parseAckItem (bs ++ more) = some (i, r ++ more) := by
  match bs, h with
  | o :: p :: s0 :: s1 :: c0 :: c1 :: st :: op :: hop :: tail, h =>
    obtain ⟨hok, heq⟩ := (parseAckItem_iff ..).1 h
    obtain ⟨rfl, rfl⟩ := Prod.mk.inj heq
    exact (parseAckItem_iff ..).2 ⟨hok, rfl⟩

theorem parseCompact_append {bs r : List Byte} {i : Item} (h : parseCompact now bs = some (i, r)) (more : List Byte) :
    parseCompact now (bs ++ more) = some (i, r ++ more) := by
  match bs, h with
  | o :: s0 :: s1 :: k :: sh :: st :: n :: tail, h =>
    obtain ⟨hok, kind, sev, state, hcodes, xs, r1, hxs, htwice, heq⟩ := (parseCompact_iff ..).1 h
    obtain ⟨rfl, rfl⟩ := Prod.mk.inj heq
    exact (parseCompact_iff ..).2 ⟨hok, kind, sev, state, hcodes, xs, r ++ more, parsePoints_append hxs more, htwice, rfl⟩

theorem parseAlive_append {bs r : List Byte} {i : Item} (h : parseAlive bs = some (i, r)) (more : List Byte) :
    parseAlive (bs ++ more) = some (i, r ++ more) := by
  match bs, h with
  | o :: p :: s0 :: s1 :: hop :: sev :: tail, h =>
    obtain ⟨hok, heq⟩ := (parseAlive_iff ..).1 h
    obtain ⟨rfl, rfl⟩ := Prod.mk.inj heq
    exact (parseAlive_iff ..).2 ⟨hok, rfl⟩

/-- The parse of an item, by its type code. -/
theorem parseItem_cons (now : Time) (t : Byte) (bs : List Byte) : parseItem now (t :: bs) =
    if t = 0x01 then parseFault now bs
    else if t = 0x02 then parseAckItem bs
    else if t = 0x03 then parseCompact now bs
    else if t = 0x04 then parseAlive bs
    else none := rfl

theorem parseItem_append {bs r : List Byte} {i : Item} (h : parseItem now bs = some (i, r)) (more : List Byte) :
    parseItem now (bs ++ more) = some (i, r ++ more) := by
  cases bs with
  | nil => nomatch h
  | cons t bs =>
    rw [List.cons_append]
    rw [parseItem_cons] at h ⊢
    split at h
    · exact (if_pos ‹_›).trans (parseFault_append h more)
    · rw [if_neg ‹_›]
      split at h
      · exact (if_pos ‹_›).trans (parseAckItem_append h more)
      · rw [if_neg ‹_›]
        split at h
        · exact (if_pos ‹_›).trans (parseCompact_append h more)
        · rw [if_neg ‹_›]
          split at h
          · exact (if_pos ‹_›).trans (parseAlive_append h more)
          · nomatch h

/-- The bytes of an item with some missing at the end are malformed. -/
theorem parseItem_cut {i : Item} {a b : List Byte} (h : i.sendable = true) (hbytes : itemBytes sent i = a ++ b)
    (hb : b ≠ []) : parseItem heard a = none := by
  cases ha : parseItem heard a with
  | none => rfl
  | some y =>
    have hwhole := parseItem_itemBytes (sent := sent) (heard := heard) h []
    rw [List.append_nil, hbytes, parseItem_append (i := y.1) (r := y.2) ha b] at hwhole
    have hrest : y.2 ++ b = [] := congrArg Prod.snd (Option.some.inj hwhole)
    exact absurd (List.append_eq_nil_iff.1 hrest).2 hb

/-! ## The items of a bulletin, its header (R145, R151) -/

/-- The good items in front parse; the parse goes on behind them. -/
theorem parseItems_good : ∀ {good : List Item}, (∀ i ∈ good, i.sendable = true) → ∀ (m : Nat) (rest : List Byte),
    parseItems heard (good.length + m) (good.flatMap (itemBytes sent) ++ rest) =
      (parseItems heard m rest).map (good.map (Item.asHeard sent heard) ++ ·)
  | [], _, m, rest => by simp
  | i :: good, h, m, rest => by
    have ih := parseItems_good (fun j hj => h j (List.mem_cons_of_mem i hj)) m rest
    rw [List.flatMap_cons, List.append_assoc, List.length_cons, Nat.add_right_comm, parseItems,
      parseItem_itemBytes (h i List.mem_cons_self)]
    simp only [ih, Option.map_map, List.map_cons]
    rfl

theorem parseItems_behind (h : rest ≠ []) : parseItems heard 0 rest = none := by
  cases rest with
  | nil => exact absurd rfl h
  | cons b rest => rfl

theorem parseItems_malformed (h : parseItem heard rest = none) (m : Nat) : parseItems heard (m + 1) rest = none := by
  rw [parseItems, h]

theorem parseBulletin_cons (heard : Time) (sender s0 s1 n : Byte) (rest : List Byte) :
    parseBulletin heard (sender :: s0 :: s1 :: n :: rest) =
      if stationOk sender && decide (n.toNat ≤ 12) then
        (parseItems heard n.toNat rest).map fun items => ⟨sender.toNat, halfOf s0 s1, items⟩
      else none := rfl

theorem parseBulletin_of_items {sender s0 s1 n : Byte} (h : parseItems heard n.toNat rest = none) :
    parseBulletin heard (sender :: s0 :: s1 :: n :: rest) = none := by
  rw [parseBulletin_cons, h, Option.map_none, ite_self]

theorem parseBulletin_body {sender : Nat} (start : Half) {items : List Item} (h1 : 1 ≤ sender) (h240 : sender ≤ 240)
    (h12 : items.length ≤ 12) (h : ∀ i ∈ items, i.sendable = true) :
    parseBulletin heard (bulletinBody sender start sent items) =
      some ⟨sender, start, items.map (Item.asHeard sent heard)⟩ := by
  obtain ⟨hok, hsender⟩ := stationOk_byteOf ((stationNumber_iff sender).2 ⟨h1, h240⟩)
  have hn := byteOf_toNat (n := items.length) (by omega)
  have hbody : bulletinBody sender start sent items = byteOf sender :: (start.setWidth 8) ::
      ((start >>> 8).setWidth 8) :: byteOf items.length :: items.flatMap (itemBytes sent) := rfl
  have hitems := parseItems_good (heard := heard) (sent := sent) h 0 []
  rw [List.append_nil, Nat.add_zero] at hitems
  rw [hbody, parseBulletin_cons, hn, hok, hsender, halfOf_halfBytes, hitems,
    if_pos (by rw [decide_eq_true h12]; rfl)]
  simp [parseItems]

/-! ## Malformed items (R151) -/

theorem stationOk_false {b : Byte} (h : ¬ (1 ≤ b.toNat ∧ b.toNat ≤ 240)) : ¬ stationOk b = true :=
  mt (stationOk_iff b).1 h

theorem pointOk_false {b : Byte} (h : 31 < b.toNat) : ¬ pointOk b = true := mt (pointOk_iff b).1 (Nat.not_le.2 h)

/-- Where parsing gives nothing for any answer, it gives none. -/
theorem eq_none_of_not_some {α : Type} {o : Option α} (h : ∀ a, ¬ o = some a) : o = none := by
  cases o with
  | none => rfl
  | some a => exact absurd rfl (h a)

theorem itemSeverity_none {b : Byte} (h : b.toNat % 8 = 0) : itemSeverity b = none := if_pos h

theorem parseAckPart_bad {y : Byte} {x : Byte} (h : ¬ (1 ≤ x.toNat ∧ x.toNat ≤ 240)) (rest : List Byte) :
    parseAckPart true (x :: y :: rest) = none := if_neg (stationOk_false h)

theorem parseAffected_bad {z : Byte} (h : 16 < z.toNat) (rest : List Byte) : parseAffected true (z :: rest) = none :=
  if_neg (Nat.not_le.2 h)

/-- Points that parse are those laid out, each in its range. -/
theorem parsePoints_read : ∀ {points : List (Byte × Byte × Byte × Byte × Byte)} {xs : List CompactPoint} {r : List Byte},
    parsePoints now points.length (points.flatMap (fun x => [x.1, x.2.1, x.2.2.1, x.2.2.2.1, x.2.2.2.2]) ++ rest) =
      some (xs, r) → (∀ x ∈ points, x.1.toNat ≤ 31) ∧ xs.map (·.point) = points.map (·.1.toNat)
  | [], xs, r, h => by
    cases h
    exact ⟨fun _ hx => absurd hx List.not_mem_nil, rfl⟩
  | z :: points, xs, r, h => by
    have hbytes : (z :: points).flatMap (fun x => [x.1, x.2.1, x.2.2.1, x.2.2.2.1, x.2.2.2.2]) ++ rest =
        z.1 :: z.2.1 :: z.2.2.1 :: z.2.2.2.1 :: z.2.2.2.2 ::
          (points.flatMap (fun x => [x.1, x.2.1, x.2.2.1, x.2.2.2.1, x.2.2.2.2]) ++ rest) := rfl
    rw [hbytes, List.length_cons, parsePoints, Option.ite_none_right_eq_some] at h
    obtain ⟨hok, h⟩ := h
    cases hrest : parsePoints now points.length
        (points.flatMap (fun x => [x.1, x.2.1, x.2.2.1, x.2.2.2.1, x.2.2.2.2]) ++ rest) with
    | none =>
      rw [hrest] at h
      nomatch h
    | some y =>
      obtain ⟨hrange, hpoints⟩ := parsePoints_read (xs := y.1) (r := y.2) hrest
      rw [hrest] at h
      simp only [Option.some.injEq, Prod.mk.injEq] at h
      obtain ⟨rfl, rfl⟩ := h
      refine ⟨fun x hx => ?_, ?_⟩
      · rcases List.mem_cons.1 hx with rfl | hx
        · exact (pointOk_iff _).1 hok
        · exact hrange x hx
      · rw [List.map_cons, List.map_cons, hpoints]

theorem noTwice_iff (l : List Nat) : noTwice l = true ↔ l.Nodup := by
  induction l with
  | nil => simp [noTwice]
  | cons a l ih => simp [noTwice, ih]

/-- Settles O31: the parse of laid-out items, and what each parser refuses. -/
theorem bulletinParsesBack : Obligations.BulletinParsesBack := by
  unfold Obligations.BulletinParsesBack
  refine ⟨fun sender start sent heard items h1 h240 h12 h => parseBulletin_body start h1 h240 h12 h,
    fun heard sender s0 s1 n rest => ⟨fun h => ?_, fun h => ?_, fun sent good hgood => ?_⟩, fun heard => ?_⟩
  · rw [parseBulletin_cons]
    refine if_neg fun hok => ?_
    rw [Bool.and_eq_true_iff, stationOk_iff, decide_eq_true_iff] at hok
    omega
  · match rest, h with
    | [], _ => rfl
    | [_], _ => rfl
    | [_, _], _ => rfl
    | [_, _, _], _ => rfl
  · intro bytes
    refine ⟨fun hn hrest => parseBulletin_of_items ?_, fun hn hrest => parseBulletin_of_items ?_⟩
    · have hitems := parseItems_good (heard := heard) (sent := sent) hgood 0 rest
      rw [parseItems_behind hrest, Nat.add_zero, hn] at hitems
      exact hitems
    · have hitems := parseItems_good (heard := heard) (sent := sent) hgood (n.toNat - good.length - 1 + 1) rest
      rw [parseItems_malformed hrest, show good.length + (n.toNat - good.length - 1 + 1) = n.toNat by omega] at hitems
      exact hitems
  · intro bad station
    have hnone : ∀ {bs : List Byte}, (∀ x, ¬ parseItem heard bs = some x) → bad bs := eq_none_of_not_some
    have hstation : ∀ {b : Byte}, stationOk b = true → station b := fun {b} => (stationOk_iff b).1
    refine ⟨rfl, fun t rest h => ?_, fun i sent a b hi hbytes hb => parseItem_cut hi hbytes hb,
      fun o p s0 s1 c0 c1 k sh st occ a0 a1 x y z rest => ⟨fun h => ?_, fun hbit hx => ?_, fun hbit2 hbit3 hz => ?_,
        fun hbit2 hbit3 hz => ?_⟩, fun o p s0 s1 c0 c1 st op hop rest h => ?_, fun o s0 s1 k sh st n rest h => ?_,
      fun o s0 s1 k sh st n points rest hn h => ?_, fun o p s0 s1 hop sev rest h => ?_⟩
    · have hne : ∀ b : Byte, 1 ≤ b.toNat → b.toNat ≤ 4 → t ≠ b := fun b h1 h4 heq => by
        subst heq
        omega
      show parseItem heard (t :: rest) = none
      rw [parseItem_cons, if_neg (hne 1 (by decide) (by decide)), if_neg (hne 2 (by decide) (by decide)),
        if_neg (hne 3 (by decide) (by decide)), if_neg (hne 4 (by decide) (by decide))]
    · refine hnone fun v hv => ?_
      obtain ⟨⟨hok, hpok⟩, kind, sev, state, ⟨hkind, hsev, hstate⟩, -⟩ := (parseFault_iff ..).1 hv
      rcases h with h | h | h | h | h | h
      · exact h (hstation hok)
      · exact pointOk_false h hpok
      · rw [itemKind_none (.inl h)] at hkind
        nomatch hkind
      · rw [itemKind_none (.inr h)] at hkind
        nomatch hkind
      · rw [itemSeverity_none h] at hsev
        nomatch hsev
      · rw [h] at hstate
        nomatch hstate
    · refine hnone fun v hv => ?_
      obtain ⟨-, -, -, -, -, ack, r, hack, -⟩ := (parseFault_iff ..).1 hv
      rw [hbit] at hack
      exact nomatch (parseAckPart_bad hx rest).symm.trans hack
    · refine hnone fun v hv => ?_
      obtain ⟨-, -, -, -, -, ack, r, hack, aff, r', haff, -⟩ := (parseFault_iff ..).1 hv
      have hrest : r = z :: rest := by
        rw [hbit2] at hack
        have hack : (if stationOk x then some (some (⟨x.toNat, y⟩ : Ack), z :: rest) else none) = some (ack, r) := hack
        simp only [Option.ite_none_right_eq_some, Option.some.injEq, Prod.mk.injEq] at hack
        exact hack.2.2.symm
      rw [hbit3, hrest, parseAffected_bad hz] at haff
      nomatch haff
    · refine hnone fun v hv => ?_
      obtain ⟨-, -, -, -, -, ack, r, hack, aff, r', haff, -⟩ := (parseFault_iff ..).1 hv
      have hrest : r = z :: rest := by
        rw [hbit2] at hack
        exact (congrArg Prod.snd (Option.some.inj hack)).symm
      rw [hbit3, hrest, parseAffected_bad hz] at haff
      nomatch haff
    · refine hnone fun v hv => ?_
      obtain ⟨⟨hok, hpok, hsok, hhop⟩, -⟩ := (parseAckItem_iff ..).1 hv
      rcases h with h | h | h | h
      · exact h (hstation hok)
      · exact pointOk_false h hpok
      · exact h (hstation hsok)
      · omega
    · refine hnone fun v hv => ?_
      obtain ⟨⟨hok, h2, h8⟩, kind, sev, state, ⟨hkind, hsev, hstate⟩, -⟩ := (parseCompact_iff ..).1 hv
      rcases h with h | h | h | h | h | h | h
      · exact h (hstation hok)
      · rw [itemKind_none (.inl h)] at hkind
        nomatch hkind
      · rw [itemKind_none (.inr h)] at hkind
        nomatch hkind
      · rw [itemSeverity_none h] at hsev
        nomatch hsev
      · rw [h] at hstate
        nomatch hstate
      · omega
      · omega
    · refine hnone fun v hv => ?_
      obtain ⟨-, kind, sev, state, -, xs, r, hxs, htwice, -⟩ := (parseCompact_iff ..).1 hv
      rw [← hn] at hxs
      obtain ⟨hrange, hpoints⟩ := parsePoints_read hxs
      rcases h with ⟨x, hx, hbig⟩ | hdup
      · have := hrange x hx
        omega
      · rw [hpoints, noTwice_iff, ← Function.comp_def (f := BitVec.toNat), ← List.map_map] at htwice
        exact hdup (List.Nodup.of_map _ htwice)
    · refine hnone fun v hv => ?_
      obtain ⟨⟨hok, hp, hhop, hsev⟩, -⟩ := (parseAlive_iff ..).1 hv
      rcases h with h | h | h | h
      · exact h (hstation hok)
      · exact h hp
      · omega
      · exact h hsev

end Sys2Proof.Machine

/-! The characters of a bulletin, taken one by one (O32). -/

namespace Sys2Proof.Machine

variable {s : State}

/-! ## Item bytes are as many as Table 8.1 gives -/

theorem ackBytes_length (a : Option Ack) : (ackBytes a).length = if a.isSome then 2 else 0 := by cases a <;> rfl

theorem affectedBytes_length (a : Option Nat) : (affectedBytes a).length = if a.isSome then 1 else 0 := by cases a <;> rfl

theorem itemBytes_length (now : Time) (i : Item) : (itemBytes now i).length = i.size := by
  cases i with
  | fault f =>
    simp only [itemBytes, Item.size, List.length_append, List.length_cons, List.length_nil, halfBytes_length,
      natHalfBytes_length, ackBytes_length, affectedBytes_length]
  | ack a => rfl
  | compact n =>
    have hpoints : (n.points.flatMap (pointBytes now)).length = 5 * n.points.length := by
      rw [List.length_flatMap]
      induction n.points with
      | nil => rfl
      | cons z l ih =>
        rw [List.map_cons, List.sum_cons, ih, List.length_cons]
        show 5 + 5 * l.length = 5 * (l.length + 1)
        omega
    simp only [itemBytes, Item.size, List.length_append, List.length_cons, List.length_nil, halfBytes_length, hpoints]
  | alive a => rfl

theorem bulletinBody_length (sender : Nat) (start : Half) (now : Time) (items : List Item) :
    (bulletinBody sender start now items).length = 4 + (items.map (·.size)).sum := by
  have hitems : (items.flatMap (itemBytes now)).length = (items.map (·.size)).sum := by
    rw [List.length_flatMap]
    exact congrArg List.sum (List.map_congr_left fun i _ => itemBytes_length now i)
  simp only [bulletinBody, List.length_cons, List.length_append, halfBytes_length, hitems]
  omega

/-! ## Characters as commands -/

/-- The commands that wait make no difference to a character. -/
theorem State.trunkChar_pending (s : State) (v : Byte) (framing : Bool) (q : List Instr) :
    State.trunkChar { s with pending := q } v framing = { s.trunkChar v framing with pending := q } := by
  have hend : ∀ n chars, State.endFrame { s with pending := q } n chars = { s.endFrame n chars with pending := q } :=
    fun n chars => by
      by_cases hcheck : chars.drop n = halfBytes (crc (byteOf n :: chars.take n))
      · cases hp : parseBulletin s.now (chars.take n) with
        | none =>
          rw [State.endFrame_malformed (s := { s with pending := q }) hcheck hp, State.endFrame_malformed hcheck hp]
          rfl
        | some b => rw [State.endFrame_parsed (s := { s with pending := q }) hcheck hp, State.endFrame_parsed hcheck hp]; rfl
      · rw [State.endFrame_badCheck (s := { s with pending := q }) hcheck, State.endFrame_badCheck hcheck]
        rfl
  unfold State.trunkChar
  by_cases hdeaf : s.live = false ∨ s.trunk.blind = true
  · rw [if_pos (show State.live { s with pending := q } = false ∨ _ from hdeaf), if_pos hdeaf]
  · rw [if_neg (show ¬ (State.live { s with pending := q } = false ∨ _) from hdeaf), if_neg hdeaf]
    cases hrx : s.trunk.rx with
    | none =>
      simp only
      split <;> rfl
    | some f =>
      simp only
      split
      · rfl
      · cases f.length with
        | none =>
          simp only
          split <;> rfl
        | some n =>
          simp only
          split
          · rw [hend]
            rfl
          · rfl

/-- The station after characters taken without framing errors, with the commands that still wait. -/
def State.afterChars (s : State) (chars : List Byte) (q : List Instr) : State :=
  { chars.foldl (fun s c => State.trunkChar s c false) s with pending := q }

/-- A run over characters that wait as commands takes them one by one. -/
theorem run_characters (s : State) (rest : List Instr) (chars : List Byte) :
    Host.Core.run core chars.length
        { s with pending := chars.map (fun c => .trunkCharacterReceived c false) ++ rest } =
      .next (s.afterChars chars rest) :=
  run_commands (command := fun c => .trunkCharacterReceived c false) (σ := s.afterChars)
    (fun _ _ => ⟨rfl, fun _ => rfl⟩) (l := chars) (taken := []) (q := rest) 0 fun a x b _ q => by
      unfold State.afterChars
      rw [List.nil_append, List.foldl_append]
      exact congrArg Host.Outcome.next (State.trunkChar_pending _ x false q)

/-! ## A frame in progress -/

/-- The station while a frame is taken under CD: the end of the event that began it has left its mark (R148, R155). -/
def State.duringFrame (s : State) (f : Option RxFrame) : State :=
  { s with
    attention := attentionCondition s.view s.level
    trunk := { s.trunk with slot := if s.trunk.access = .defer then none else s.trunk.slot, rx := f } }

/-- On a busy channel the end of an event finds nothing more to do after the end of the event that began the frame. -/
theorem Trunk.settled_afterFrame {t : Trunk} (hcd : t.cd = true) (hrx : t.rx = none) (q : List QItem) (clock : Instant) :
    Trunk.settled { t with slot := if t.access = .defer then none else t.slot, rx := none } q clock =
      t.settled q clock := by
  obtain ⟨enable, access, count, slot, cd, rx, lfsr, bulletin, since⟩ := t
  dsimp only at hcd hrx ⊢
  subst hcd hrx
  rw [Trunk.settled_of_busy rfl, Trunk.settled_of_busy rfl]
  dsimp only
  split <;> rfl

section Frame

variable (h : s.Receiving)
include h

theorem State.duringFrame_receiving (f : Option RxFrame) : (s.duringFrame f).Receiving := h

/-- The lead-in passes a hunting receiver by (R148). -/
theorem State.trunkChar_leadIn (hrx : s.trunk.rx = none) : s.trunkChar 0x55 false = s := by
  rw [State.trunkChar_hunting h hrx, if_neg fun ⟨hv, _⟩ => absurd hv (by decide)]

theorem State.trunkChar_start (hrx : s.trunk.rx = none) (hcd : s.trunk.cd = true) :
    s.trunkChar 0x7E false = s.duringFrame (some ⟨none, []⟩) := by
  rw [State.trunkChar_hunting h hrx, if_pos ⟨rfl, rfl, hcd⟩]
  have hbusy : Trunk.busy { s.trunk with rx := some ⟨none, []⟩ } = true := (Trunk.busy_iff _).2 (.inl hcd)
  exact congrArg (fun t : Trunk => { s with attention := attentionCondition s.view s.level, trunk := t })
    (Trunk.settled_of_busy (q := s.queue) (clock := s.clock) hbusy)

theorem State.trunkChar_duringLength {n : Nat} (h4 : 4 ≤ n) (h240 : n ≤ 240) :
    (s.duringFrame (some ⟨none, []⟩)).trunkChar (byteOf n) false = s.duringFrame (some ⟨some n, []⟩) := by
  have hn := byteOf_toNat (n := n) (by omega)
  rw [State.trunkChar_length (s.duringFrame_receiving h _) rfl, hn, if_pos ⟨h4, h240⟩]
  rfl

/-- The characters of the extent but for the last are kept. -/
theorem State.trunkChars_kept {n : Nat} : ∀ {chars taken : List Byte}, taken.length + chars.length < n + 2 →
    chars.foldl (fun s c => s.trunkChar c false) (s.duringFrame (some ⟨some n, taken⟩)) =
      s.duringFrame (some ⟨some n, taken ++ chars⟩)
  | [], taken, _ => by rw [List.append_nil]; rfl
  | c :: chars, taken, hlength => by
    rw [List.length_cons] at hlength
    have hkept : (s.duringFrame (some ⟨some n, taken⟩)).trunkChar c false = s.duringFrame (some ⟨some n, taken ++ [c]⟩) := by
      rw [State.trunkChar_extent (s.duringFrame_receiving h _) rfl, if_neg (by omega)]
      rfl
    have ih := State.trunkChars_kept (n := n) (chars := chars) (taken := taken ++ [c]) (by
      rw [List.length_append, List.length_singleton]
      omega)
    rw [List.foldl_cons, hkept, ih, List.append_assoc]
    rfl

/-- A frame of a good bulletin, taken whole, hands the bulletin on (R149, R151, R152). -/
theorem State.trunkChars_frame (hrx : s.trunk.rx = none) (hcd : s.trunk.cd = true) {body : List Byte} {b : Bulletin}
    (h4 : 4 ≤ body.length) (h240 : body.length ≤ 240) (hp : parseBulletin s.now body = some b) :
    (bulletinFrame body).foldl (fun s c => s.trunkChar c false) s =
      State.settle { s with toCounty := s.toCounty.hearBulletin s.ctx b.sender b.start b.items } := by
  have hframe : bulletinFrame body = [0x55, 0x55, 0x55, 0x55, 0x7E, byteOf body.length] ++
      (body ++ [(crc (byteOf body.length :: body)).setWidth 8]) ++
        [((crc (byteOf body.length :: body)) >>> 8).setWidth 8] := by
    simp [bulletinFrame, halfBytes]
  have hhead : [0x55, 0x55, 0x55, 0x55, 0x7E, byteOf body.length].foldl (fun s c => s.trunkChar c false) s =
      s.duringFrame (some ⟨some body.length, []⟩) := by
    simp only [List.foldl_cons, List.foldl_nil, State.trunkChar_leadIn h hrx, State.trunkChar_start h hrx hcd,
      State.trunkChar_duringLength h h4 h240]
  rw [hframe, List.foldl_append, List.foldl_append, hhead, State.trunkChars_kept h (by simp), List.nil_append,
    List.foldl_cons, List.foldl_nil]
  generalize hc : crc (byteOf body.length :: body) = check
  have hchars : body ++ [check.setWidth 8] ++ [(check >>> 8).setWidth 8] = body ++ halfBytes check := by
    rw [List.append_assoc]
    rfl
  rw [State.trunkChar_extent (s.duringFrame_receiving h _) rfl, if_pos (by simp), hchars,
    State.endFrame_parsed (b := b)]
  · exact congrArg (fun t : Trunk => ({ s with
      toCounty := s.toCounty.hearBulletin s.ctx b.sender b.start b.items
      attention := attentionCondition (s.toCounty.hearBulletin s.ctx b.sender b.start b.items).view s.level
      trunk := t } : State)) (Trunk.settled_afterFrame hcd hrx _ _)
  · rw [List.drop_left, List.take_left, hc]
  · rw [List.take_left]
    exact hp

end Frame

/-- Settles O32: the bulletin parses back, and its frame is taken character by character. -/
theorem bulletinSentIsBulletinHeard : Obligations.BulletinSentIsBulletinHeard := by
  unfold Obligations.BulletinSentIsBulletinHeard
  intro s rest sender start sent items hlive hblind hcd hrx h1 h240 h12 hitems hbytes frame heard
  have hlength := bulletinBody_length sender start sent items
  have hframe := State.trunkChars_frame ⟨hlive, hblind⟩ hrx hcd (body := bulletinBody sender start sent items)
    (by rw [hlength]; exact Nat.le_add_right 4 _) (by rw [hlength]; exact Nat.add_le_add_left hbytes 4)
    (parseBulletin_body (heard := s.now) start h1 h240 h12 hitems)
  refine (run_characters s rest frame).trans ?_
  exact congrArg (fun t : State => Host.Outcome.next { t with pending := rest }) hframe

end Sys2Proof.Machine

/-! What heard news does to roll, view and queue: evidence of life, and heard items of other origins (O49). -/

namespace Sys2Proof.Machine

variable {c : Ctx} {k : County}

/-! ## Evidence of life (R116) -/

theorem entryHeardAgain_key (c : Ctx) (e : Entry) :
    (entryHeardAgain c e).origin = e.origin ∧ (entryHeardAgain c e).point = e.point := by
  unfold entryHeardAgain
  split
  · split <;> exact ⟨rfl, rfl⟩
  · exact ⟨rfl, rfl⟩

theorem entryHeardAgain_rests {e : Entry} (h : e.state ≠ .active) : entryHeardAgain c e = e := if_neg h

theorem entryHeardAgain_clears {e : Entry} (h : e.state = .active) (hack : e.ack = none) :
    entryHeardAgain c e = { e with state := .cleared, ageBase := 0, baseTime := c.now } :=
  (if_pos h).trans (if_neg (by rw [hack]; nofun))

theorem entryHeardAgain_retires {e : Entry} (h : e.state = .active) (hack : e.ack ≠ none) : entryHeardAgain c e =
    { e with state := .retired, ageBase := 0, baseTime := c.now, retireTime := some (c.cfg.retireAt c.now) } :=
  (if_pos h).trans (if_pos (Option.isSome_iff_ne_none.2 hack))

theorem County.evidence_eq (c : Ctx) (o : Nat) (k : County) : k.evidence c o = { k with
    roll := rollSet k.roll o { rollGet k.roll o with lastHeard := c.now, silent := false }
    view := if (rollGet k.roll o).silent then updateEntry k.view o stationPoint (entryHeardAgain c) else k.view } := by
  by_cases hs : (rollGet k.roll o).silent = true
  · rw [if_pos hs]
    exact if_pos hs
  · rw [if_neg hs]
    exact if_neg hs

theorem County.evidence_find (c : Ctx) (o : Nat) (k : County) (a p : Nat) : findEntry (k.evidence c o).view a p =
    if (rollGet k.roll o).silent = true ∧ a = o ∧ p = stationPoint then
      (findEntry k.view o stationPoint).map (entryHeardAgain c)
    else findEntry k.view a p := by
  rw [County.evidence_eq]
  by_cases hs : (rollGet k.roll o).silent = true
  · simp only [hs, if_true, true_and]
    exact findEntry_updateEntry k.view o stationPoint _ (entryHeardAgain_key c) a p
  · rw [Bool.not_eq_true] at hs
    simp [hs]

/-! ## Heard items by their outcome -/

/-- A relay of what was heard, unless its hop budget is 0 (R127). -/
theorem County.relay_eq (c : Ctx) (hop : Nat) (i : Item) (severity : Nat) (k : County) :
    k.relay c hop i severity = if hop = 0 then k else k.offer c ⟨i, severity, .relay, 1, 0⟩ := rfl

/-- What a merge's outcome does before a relay: evidence of life, notices, counts and corrections (Table 6.4). -/
def County.afterOutcome (c : Ctx) (o p : Nat) (st : Stamp) (earlier : List (Nat × Stamp)) (k : County) :
    MergeOutcome → County
  | .created => k.evidence c o
  | .newer => k.evidence c o
  | .ackApplied => k
  | .renewal => k
  | .duplicate => k.notice c o p st earlier
  | .outdated => (k.count .staleHeard).correct c o p
  | .unplaced => k.count .staleHeard

theorem County.afterOutcome_eq (c : Ctx) (o p : Nat) (st : Stamp) (earlier : List (Nat × Stamp)) (k : County)
    (out : MergeOutcome) :
    (if out.isLife then k.evidence c o else k).handOutcome c o p st earlier out =
      k.afterOutcome c o p st earlier out := by
  cases out <;> rfl

/-- The relay of a FAULT carries the ack part that the view holds for its stamp, or its own (R127). -/
theorem relayFault_eq (v : List Entry) (f : FaultNews) :
    let held := match findEntry v f.origin f.point with
      | some e => if e.stamp = some f.stamp then e.ack else none
      | none => none
    relayFault v f = { f with hop := f.hop - 1, ack := if held = none then f.ack else held } := by
  intro held
  have hheld : ((findEntry v f.origin f.point).bind fun e => if e.stamp = some f.stamp then e.ack else none) = held := by
    cases h : findEntry v f.origin f.point with
    | none => simp only [held, h, Option.bind_none]
    | some e => simp only [held, h, Option.bind_some]
  have hor : ∀ a b : Option Ack, a.or b = if a = none then b else a := fun a b => by cases a <;> rfl
  unfold relayFault
  rw [hheld]
  exact congrArg (fun a : Option Ack => ({ f with hop := f.hop - 1, ack := a } : FaultNews)) (hor held f.ack)

theorem County.hearFault_eq (c : Ctx) (f : FaultNews) (k : County) : k.hearFault c f =
    let r := mergeFault c false f k.toViewSide
    let k' := ({ k with toViewSide := r.1 } : County).afterOutcome c f.origin f.point f.stamp [] r.2
    if r.2.isRelayed then k'.relay c f.hop (.fault (relayFault k'.view f)) f.severity else k' := by
  simp only [County.hearFault, County.afterOutcome_eq]

theorem County.hearPoint_eq (c : Ctx) (n : CompactNews) (acc : County × List CompactPoint × List (Nat × Stamp))
    (y : CompactPoint) : County.hearPoint c n acc y =
      let r := mergeFault c true (compactNewsAt n y) acc.1.toViewSide
      (({ acc.1 with toViewSide := r.1 } : County).afterOutcome c n.origin y.point ⟨n.start, y.change⟩ acc.2.2 r.2,
        if r.2.isRelayed then acc.2.1 ++ [y] else acc.2.1,
        if r.2 = .duplicate then acc.2.2 ++ [(y.point, ⟨n.start, y.change⟩)] else acc.2.2) := by
  simp only [County.hearPoint, County.afterOutcome_eq]
  rfl

section Ack

variable {a : AckNews}

theorem County.hearAck_eq (c : Ctx) (a : AckNews) (k : County) : k.hearAck c a =
    let r := mergeAckItem c a k.toViewSide
    let k' := ({ k with toViewSide := r.1 } : County).handOutcome c a.origin a.point a.stamp [] r.2
    if r.2.isRelayed then
      match findEntry k'.view a.origin a.point with
      | none => k'
      | some e => k'.relay c a.hop (.ack { a with hop := a.hop - 1 }) e.severity
    else k' := rfl

theorem County.hearAck_relayed {e : Entry} (hr : (mergeAckItem c a k.toViewSide).2 = .ackApplied)
    (he : findEntry (mergeAckItem c a k.toViewSide).1.view a.origin a.point = some e) : k.hearAck c a =
      ({ k with toViewSide := (mergeAckItem c a k.toViewSide).1 } : County).relay c a.hop (.ack { a with hop := a.hop - 1 })
        e.severity := by
  rw [County.hearAck_eq]
  simp only [hr, County.handOutcome, MergeOutcome.isRelayed, if_true, he]

theorem County.hearAck_quiet (hr : (mergeAckItem c a k.toViewSide).2.isRelayed = false) : k.hearAck c a =
    ({ k with toViewSide := (mergeAckItem c a k.toViewSide).1 } : County).handOutcome c a.origin a.point a.stamp []
      (mergeAckItem c a k.toViewSide).2 := by
  rw [County.hearAck_eq]
  exact if_neg (by rw [hr]; nofun)

end Ack

/-! ## The newness of an ALIVE (R118) -/

section Alive

variable {a : AliveNews}

/-- The roll of before a bulletin as its ALIVE meets it: the station is unknown there where the bulletin or the ALIVE itself
has made it known or advanced it (R118). -/
theorem County.priorAtAlive (prior : Vector RollRecord 240) (h1 : 1 ≤ a.origin) (h240 : a.origin ≤ 240)
    (hcurrent : ∀ n, (rollGet k.roll a.origin).newest = some n → a.start = n ∨ countTakenNewer a.start n = true) :
    rollGet (k.notePrior a.origin a.start prior) a.origin =
      if (rollGet k.roll a.origin).newest = some a.start then rollGet prior a.origin else {} := by
  by_cases hsame : (rollGet k.roll a.origin).newest = some a.start
  · rw [if_pos hsame, County.notePrior_keeps prior]
    rintro (hnone | ⟨n, hn, hne, -⟩)
    · rw [hsame] at hnone
      nomatch hnone
    · rw [hsame] at hn
      exact hne (Option.some.inj hn)
  · rw [if_neg hsame, County.notePrior_news prior]
    · exact rollGet_rollSet_self _ _ ⟨h1, h240⟩
    · cases hn : (rollGet k.roll a.origin).newest with
      | none => exact .inl hn
      | some n =>
        have hne : a.start ≠ n := fun h => hsame (by rw [hn, h])
        exact .inr ⟨n, hn, hne, (hcurrent n hn).resolve_left hne⟩

end Alive

/-- Settles O49: evidence of life by the entry of the station, each item by the outcome of its merge. -/
theorem heardNewsHandedOn : Obligations.HeardNewsHandedOn := by
  unfold Obligations.HeardNewsHandedOn
  refine ⟨fun c o k h1 h240 => ?_, fun c prior i k n hi hn hne hold => ?_, fun c prior i k₀ hi h1 h240 hcurrent => ?_⟩
  · intro t r
    have hfind := County.evidence_find c o k
    have hroll : t.roll = rollSet k.roll o { r with lastHeard := c.now, silent := false } :=
      congrArg County.roll (County.evidence_eq c o k)
    refine ⟨?_, ?_, fun p hp => ?_, fun hs => ?_, fun a p hne => ?_, fun hnone => ?_, fun e hs he => ?_⟩
    · show k.evidence c o = { k with roll := (k.evidence c o).roll, view := (k.evidence c o).view }
      rw [County.evidence_eq]
    · rw [hroll]
      exact rollGet_rollSet_self _ _ ⟨h1, h240⟩
    · rw [hroll]
      exact rollGet_rollSet_ne _ _ hp.symm
    · refine (congrArg (fun k : County => k.view) (County.evidence_eq c o k)).trans (if_neg ?_)
      rw [show (rollGet k.roll o).silent = false from hs]
      nofun
    · exact (hfind a p).trans (if_neg fun h => hne h.2)
    · refine (hfind o 255).trans ?_
      rw [show findEntry k.view o stationPoint = none from hnone, Option.map_none]
      exact ite_eq_left_iff.2 fun _ => hnone
    · have hentry : findEntry t.view o 255 = some (entryHeardAgain c e) :=
        (hfind o 255).trans ((if_pos ⟨hs, rfl, rfl⟩).trans (congrArg (Option.map (entryHeardAgain c)) he))
      refine ⟨fun hstate => ?_, fun hstate hack => ?_, fun hstate hack => ?_⟩
      · rw [hentry, entryHeardAgain_rests hstate]
      · rw [hentry, entryHeardAgain_clears hstate hack]
      · rw [hentry, entryHeardAgain_retires hstate hack]
        rfl
  · refine County.hearItem_of_older prior hi ?_
    unfold olderEpoch County.record
    simp only [hn, hold, Bool.not_false, Bool.and_true]
    exact bne_iff_ne.2 hne
  · intro k relayed
    have hitem := County.hearItem_of_current (c := c) prior hi (olderEpoch_eq_false hcurrent)
    refine ⟨fun f hf => ?_, fun a ha => ?_, fun m hm => ?_, fun a ha => ?_⟩
    · subst hf
      intro r merged passed
      refine hitem.trans ((County.hearFault_eq c f k).trans ?_)
      have hpassed : ∀ k' : County, k'.relay c f.hop (.fault (relayFault k'.view f)) f.severity = passed k' := fun k' => by
        rw [relayFault_eq]
        rfl
      show (if r.2.isRelayed then (merged.afterOutcome c f.origin f.point f.stamp [] r.2).relay c f.hop (.fault
        (relayFault (merged.afterOutcome c f.origin f.point f.stamp [] r.2).view f)) f.severity
        else merged.afterOutcome c f.origin f.point f.stamp [] r.2) = _
      rw [hpassed]
      cases r.2 <;> rfl
    · subst ha
      intro r merged
      have hquiet : ∀ out, r.2 = out → out.isRelayed = false →
          k.hearAck c a = merged.handOutcome c a.origin a.point a.stamp [] out := fun out hr hout => by
        subst hr
        exact County.hearAck_quiet hout
      refine ⟨fun e hr he => hitem.trans (County.hearAck_relayed hr he), fun hr => ?_, fun hr => ?_, fun hr => ?_⟩
      · exact hitem.trans (hquiet _ hr rfl)
      · exact hitem.trans (hquiet _ hr rfl)
      · exact hitem.trans (hquiet _ hr rfl)
    · subst hm
      intro step r
      have hstep : County.hearPoint c m = step := by
        funext acc y
        rw [County.hearPoint_eq]
        simp only [step, compactNewsAt]
        obtain ⟨w, out, hr⟩ : ∃ w out, mergeFault c true ⟨m.origin, y.point, ⟨m.start, y.change⟩, m.kind, m.severity, m.state,
            0, y.age, y.asOf, m.hop, none, none⟩ acc.1.toViewSide = (w, out) := ⟨_, _, rfl⟩
        cases out <;> simp only [hr] <;> rfl
      have hcompact : k.hearCompact c m =
          match compactOf r.1.view { m with hop := m.hop - 1, points := r.2.1 } with
          | none => r.1
          | some i => r.1.relay c m.hop i m.severity := by
        unfold County.hearCompact
        rw [hstep] <;> rfl
      refine ⟨fun h => ?_, fun y h => ?_, fun h => ?_⟩
      · refine hitem.trans (hcompact.trans ?_)
        rw [h]
        rfl
      · refine hitem.trans (hcompact.trans ?_)
        rw [h]
        simp only [compactOf, compactFault_eq]
        rfl
      · refine hitem.trans (hcompact.trans ?_)
        match hl : r.2.1, h with
        | y :: z :: l, _ =>
          simp only [compactOf]
          rfl
    · subst ha
      intro before isNew
      have hprior := County.priorAtAlive (k := k₀) prior h1 h240 hcurrent
      have halive : k₀.hearItem c prior (.alive a) = k.hearAlive c (k₀.notePrior a.origin a.start prior) a := hitem
      have hnew : ((rollGet (k₀.notePrior a.origin a.start prior) a.origin).newest = none ∨
          30 * c.cfg.presence ≤ since c.now (rollGet (k₀.notePrior a.origin a.start prior) a.origin).lastHeard) ↔
          isNew ∨ 30 * c.cfg.presence ≤ since c.now before.lastHeard := by
        show _ ↔ ((rollGet k₀.roll a.origin).newest ≠ some a.start ∨ before.newest = none) ∨ _
        rw [hprior]
        by_cases hsame : (rollGet k₀.roll a.origin).newest = some a.start
        · rw [if_pos hsame]
          simp only [hsame, ne_eq, not_true_eq_false, false_or]
          rfl
        · rw [if_neg hsame]
          simp [hsame]
      refine ⟨fun h => halive.trans (if_pos (hnew.2 h)), fun hnot hrecent => halive.trans (if_neg fun h => ?_)⟩
      exact (hnew.1 h).elim hnot (Nat.not_le.2 hrecent)

end Sys2Proof.Machine

/-! Own stamps: the start-count advance and the recovery, heard bulletins and own items (O50). -/

namespace Sys2Proof.Machine

variable {c : Ctx} {roll : Vector RollRecord 240} {view : List Entry} {k : County} {q : QueueSide} {x y : QItem}

/-! ## The origin and the start count of queued items -/

/-- A property of the origin and the start count of a queued item. -/
def QItem.Sourced (P : Nat → Half → Prop) (x : QItem) : Prop := P x.item.origin x.item.start

section Sourced

variable {P : Nat → Half → Prop} {l : List QItem}

theorem QItem.Sourced.of_eq (h : x.Sourced P) (ho : y.item.origin = x.item.origin) (hs : y.item.start = x.item.start) :
    y.Sourced P := by
  unfold QItem.Sourced
  rw [ho, hs]
  exact h

/-- What a COMPACT becomes is of its origin and start count. -/
theorem compactOf_source {n : CompactNews} {i : Item} (h : compactOf view n = some i) :
    i.origin = n.origin ∧ i.start = n.start := by
  unfold compactOf at h
  split at h
  · nomatch h
  · cases h
    exact ⟨rfl, rfl⟩
  · cases h
    exact ⟨rfl, rfl⟩

theorem withoutKey_sourced {p : Nat} (h : withoutKey view p x = some y) (hx : x.Sourced P) : y.Sourced P := by
  unfold withoutKey at h
  split at h
  · rename_i n hn
    obtain ⟨i, hi, rfl⟩ := Option.map_eq_some_iff.1 h
    obtain ⟨ho, hs⟩ := compactOf_source hi
    exact hx.of_eq (by rw [hn]; exact ho) (by rw [hn]; exact hs)
  all_goals nomatch h

theorem replaceKey_sourced {o p : Nat} (hl : ∀ z ∈ l, z.Sourced P) : ∀ z ∈ replaceKey view o p l, z.Sourced P := by
  intro z hz
  obtain ⟨w, hw, hwz⟩ := List.mem_filterMap.1 hz
  split at hwz
  · exact withoutKey_sourced hwz (hl w hw)
  · cases hwz
    exact hl z hw

theorem replaceKeys_sourced {o : Nat} : ∀ {ps : List Nat} {l : List QItem}, (∀ z ∈ l, z.Sourced P) →
    ∀ z ∈ ps.foldl (fun l p => replaceKey view o p l) l, z.Sourced P
  | [], _, hl => hl
  | _ :: ps, _, hl => replaceKeys_sourced (ps := ps) (replaceKey_sourced hl)

theorem fitIn_sourced {wanted otherwise : List QItem} (hw : ∀ z ∈ wanted, z.Sourced P) (ho : ∀ z ∈ otherwise, z.Sourced P) :
    ∀ z ∈ (fitIn c x wanted otherwise q).1.queue, z.Sourced P := by
  intro z hz
  rcases fitIn_queue c x wanted otherwise q with h | h
  · exact hw z (h.subset hz)
  · exact ho z (h ▸ hz)

theorem carryAck_start (l : List QItem) (f : FaultNews) :
    (carryAck l f).origin = f.origin ∧ (carryAck l f).stamp.start = f.stamp.start := by
  unfold carryAck
  repeat' split
  all_goals exact ⟨rfl, rfl⟩

theorem insertOffer_sourced (hq : ∀ z ∈ q.queue, z.Sourced P) (hx : x.Sourced P) :
    ∀ z ∈ (insertOffer c view x q).1.queue, z.Sourced P := by
  have hrest : ∀ z ∈ x.item.points.foldl (fun l p => replaceKey view x.item.origin p l) q.queue, z.Sourced P :=
    replaceKeys_sourced hq
  unfold insertOffer
  refine fitIn_sourced (fun z hz => ?_) hrest
  rcases mem_enqueue.1 hz with rfl | hz
  · refine hx.of_eq ?_ ?_ <;> cases hi : x.item with
    | fault f =>
      obtain ⟨ho, hs⟩ := carryAck_start q.queue f
      first | exact ho | exact hs
    | ack a => simp only [hi]
    | compact n => simp only [hi]
    | alive a => simp only [hi]
  · exact hrest z hz

theorem splitForAck_sourced {a : AckNews} (hl : ∀ z ∈ l, z.Sourced P) : ∀ z ∈ splitForAck view a l, z.Sourced P := by
  induction l with
  | nil => exact fun z hz => nomatch hz
  | cons w l ih =>
    intro z hz
    rw [splitForAck_cons, List.mem_append] at hz
    have hw := hl w List.mem_cons_self
    rcases hz with hz | hz
    · rcases splitForAck_one view a w with h | ⟨n, y, hn, -, -, h⟩
      · rw [h, List.mem_singleton] at hz
        exact hz ▸ hw
      · rw [h, List.mem_append, List.mem_singleton] at hz
        rcases hz with hz | rfl
        · exact withoutKey_sourced (Option.mem_toList.1 hz) hw
        · exact hw.of_eq (by rw [hn]; rfl) (by rw [hn]; rfl)
    · exact ih (fun v hv => hl v (List.mem_cons_of_mem w hv)) z hz

theorem mergeAck_sourced {a : AckNews} (hl : ∀ z ∈ l, z.Sourced P) : ∀ z ∈ mergeAck a l, z.Sourced P := by
  intro z hz
  obtain ⟨w, hw, rfl⟩ := List.mem_map.1 hz
  split
  · rename_i f hf
    split
    · exact (hl w hw).of_eq (by rw [hf]; rfl) (by rw [hf]; rfl)
    · exact hl w hw
  all_goals exact hl w hw

theorem mergeInto_sourced {f : FaultNews} (hx : x.Sourced P) :
    (mergeInto c f x).Sourced P := by
  unfold mergeInto
  split <;> rename_i hi
  · exact hx.of_eq (by rw [hi]; rfl) (by rw [hi]; rfl)
  · exact hx.of_eq (by rw [hi]; rfl) (by rw [hi]; rfl)
  · exact hx
  · exact hx

theorem mergeFirst_sourced {f : FaultNews} (hl : ∀ z ∈ l, z.Sourced P) : ∀ z ∈ mergeFirst c view f l, z.Sourced P := by
  induction l with
  | nil => exact fun z hz => nomatch hz
  | cons w l ih =>
    have hw := hl w List.mem_cons_self
    have htail : ∀ z ∈ l, z.Sourced P := fun z hz => hl z (List.mem_cons_of_mem w hz)
    intro z hz
    rw [mergeFirst] at hz
    split at hz
    · rcases List.mem_cons.1 hz with rfl | hz
      · exact mergeInto_sourced hw
      · exact replaceKey_sourced htail z hz
    · rcases List.mem_append.1 hz with hz | hz
      · exact replaceKey_sourced (fun v hv => List.mem_singleton.1 hv ▸ hw) z hz
      · exact ih htail z hz

theorem offerAck_sourced {a : AckNews} (hq : ∀ z ∈ q.queue, z.Sourced P) (hx : x.Sourced P) :
    ∀ z ∈ (offerAck c view x a q).1.queue, z.Sourced P := by
  unfold offerAck
  split
  · exact insertOffer_sourced hq hx
  · split
    · split
      · split
        · exact hq
        · exact mergeAck_sourced hq
      · exact fitIn_sourced (splitForAck_sourced hq) hq
      · exact insertOffer_sourced hq hx
      · exact insertOffer_sourced hq hx
    · exact insertOffer_sourced hq hx

theorem placeOffer_sourced (hq : ∀ z ∈ q.queue, z.Sourced P) (hx : x.Sourced P) :
    ∀ z ∈ (placeOffer c view x q).1.queue, z.Sourced P := by
  unfold placeOffer
  split
  · exact hq
  · split
    · rename_i merged hmerged
      split at hmerged
      · obtain ⟨f, -, -, hr⟩ := condensedMerge_queue hmerged
        rw [QueueSide.placed_fst, hr]
        exact mergeFirst_sourced hq
      · nomatch hmerged
    · split
      · exact offerAck_sourced hq hx
      · exact insertOffer_sourced hq hx
      · exact insertOffer_sourced hq hx
      · exact insertOffer_sourced hq hx

theorem perKeyCheck_sourced (h : perKeyCheck view l x = some y) (hx : x.Sourced P) : y.Sourced P := by
  unfold perKeyCheck at h
  split at h
  · rename_i n hn
    obtain ⟨i, hi, rfl⟩ := Option.map_eq_some_iff.1 h
    obtain ⟨ho, hs⟩ := compactOf_source hi
    exact hx.of_eq (by rw [hn]; exact ho) (by rw [hn]; exact hs)
  all_goals
    split at h
    · nomatch h
    · exact Option.some.inj h ▸ hx

/-- An offer brings no origin and start count into the queue but its own. -/
theorem offerCore_sourced (hq : ∀ z ∈ q.queue, z.Sourced P) (hx : x.Sourced P) :
    ∀ z ∈ (offerCore c roll view x q).queue, z.Sourced P := by
  simp only [offerCore, offerTested]
  split
  · split
    · exact hq
    · split
      · exact hq
      · rename_i y hy
        rw [testCondensed_queue, testAt_queue]
        exact placeOffer_sourced hq (perKeyCheck_sourced hy hx)
  · exact hq

/-- Nor does a resync pass but those of own entries. -/
theorem resyncPass_sourced (hq : ∀ z ∈ q.queue, z.Sourced P)
    (hview : ∀ e ∈ view, e.own = true → P e.origin (e.stamp.getD ⟨0, 0⟩).start) :
    ∀ z ∈ (resyncPass c roll view q).queue, z.Sourced P := by
  have hfold : ∀ (es : List Entry) (q : QueueSide), (∀ e ∈ es, P e.origin (e.stamp.getD ⟨0, 0⟩).start) →
      (∀ z ∈ q.queue, z.Sourced P) → ∀ z ∈ (es.foldl (fun q e => offerCore c roll view (resyncItem c e)
        { q with unsent := tset q.unsent e.point false }) q).queue, z.Sourced P := fun es => by
    induction es with
    | nil => exact fun q _ hq => hq
    | cons e es ih =>
      exact fun q hes hq => ih _ (fun a ha => hes a (List.mem_cons_of_mem e ha))
        (offerCore_sourced (q := { q with unsent := tset q.unsent e.point false }) hq (hes e List.mem_cons_self))
  refine hfold _ q (fun e he => ?_) hq
  obtain ⟨hmem, hmarked⟩ := List.mem_filter.1 he
  exact hview e hmem (Bool.and_eq_true_iff.1 hmarked).1

theorem afterChange_sourced {after : QueueSide} (hq : ∀ z ∈ after.queue, z.Sourced P)
    (hview : ∀ e ∈ view, e.own = true → P e.origin (e.stamp.getD ⟨0, 0⟩).start) :
    ∀ z ∈ (afterChange c roll view q after).queue, z.Sourced P := by
  have htest : ∀ z ∈ (testCondensed c after).queue, z.Sourced P := by
    rw [testCondensed_queue]
    exact hq
  unfold afterChange
  dsimp only
  split
  · exact resyncPass_sourced htest hview
  · exact htest

end Sourced

/-! ## Own entries re-stamped (R14, R121) -/

theorem County.restampOne_keeps (c : Ctx) (k : County) (p : Nat) :
    ∃ q, k.restampOne c p = { k.restamped c p with toQueueSide := q } := by
  rw [County.restampOne_eq]
  split
  · exact ⟨(k.restamped c p).toQueueSide, rfl⟩
  · exact ⟨_, rfl⟩

/-- The entry, if own, is of the start count `start`, or its point is still to be re-stamped. -/
def Entry.OfStart (c : Ctx) (start : Half) (points : List Nat) (e : Entry) : Prop :=
  e.own = true → e.origin = c.number → e.point ∈ points ∨ ∃ st, e.stamp = some st ∧ st.start = start

/-- What re-stamping the points `l` one after another leaves (R121). -/
theorem County.restamp_fold (c : Ctx) (l : List Nat) : ∀ k : County,
    ∃ q v, l.foldl (County.restampOne c) k =
        { k with toQueueSide := q, view := v, nextChange := k.nextChange + BitVec.ofNat 16 l.length } ∧
      ((∀ e ∈ k.view, e.OfStart c k.ownStart l) → ∀ e ∈ v, e.OfStart c k.ownStart []) := by
  induction l with
  | nil => exact fun k => ⟨k.toQueueSide, k.view, by simp, id⟩
  | cons p l ih =>
    intro k
    obtain ⟨q, hone⟩ := County.restampOne_keeps c k p
    obtain ⟨q', v, hrest, hstamped⟩ := ih (k.restampOne c p)
    rw [hone] at hrest hstamped
    refine ⟨q', v, ?_, fun hall => hstamped fun e he => ?_⟩
    · rw [List.foldl_cons, hone, hrest]
      have hcount : k.nextChange + 1 + BitVec.ofNat 16 l.length = k.nextChange + BitVec.ofNat 16 (p :: l).length := by
        rw [List.length_cons]
        rw [BitVec.ofNat_add, BitVec.add_comm (BitVec.ofNat 16 l.length), BitVec.add_assoc]
        rfl
      rw [← hcount]
      rfl
    · obtain ⟨a, ha, rfl⟩ := List.mem_map.1 he
      intro hown horigin
      by_cases hkey : a.hasKey c.number p = true
      · rw [if_pos hkey]
        exact .inr ⟨_, rfl, rfl⟩
      · rw [if_neg hkey] at hown horigin ⊢
        refine (hall a ha hown horigin).imp_left fun hp => (List.mem_cons.1 hp).resolve_left fun hp => hkey ?_
        exact (a.hasKey_iff _ _).2 ⟨horigin, hp⟩

/-- What a start-count advance or a recovery makes of own stamps: the entries re-stamped, no own item of an older start count
left queued (R14, R121). -/
theorem County.restampAll_spec (c : Ctx) (k : County) : ∃ q v, k.restampAll c =
      { k with toQueueSide := q, view := v
               nextChange := k.nextChange + BitVec.ofNat 16 (k.view.filter (·.own)).length } ∧
    ∀ x ∈ q.queue, x.item.origin = c.number → x.item.start = k.ownStart := by
  obtain ⟨q, v, hfold, hstamped⟩ := County.restamp_fold c ((k.view.filter (·.own)).map (·.point)) k
  have hall := hstamped fun e he hown _ => .inl (List.mem_map.2 ⟨e, List.mem_filter.2 ⟨he, hown⟩, rfl⟩)
  have hrestamp : k.restampAll c = ((((k.view.filter (·.own)).map (·.point)).foldl (County.restampOne c) k).offerAlive
      c).dropOldOwn c := rfl
  rw [hfold, List.length_map] at hrestamp
  refine ⟨_, v, hrestamp, ?_⟩
  refine afterChange_sourced (P := fun o s => o = c.number → s = k.ownStart) (fun z hz horigin => ?_) fun e he hown ho => ?_
  · have hkept := (List.mem_filter.1 hz).2
    rw [beq_iff_eq.2 horigin, Bool.true_and, Bool.not_eq_true', bne_eq_false_iff_eq] at hkept
    exact hkept
  · obtain ⟨st, hst, hstart⟩ := (hall e he hown ho).resolve_left List.not_mem_nil
    rw [hst]
    exact hstart

theorem Loader.requestStart_free {l : Loader} (h : l.op = none) (count : Half) :
    l.requestStart count = { l with op := some (.startWrite count) } := by
  simp only [Loader.requestStart, h]

theorem Loader.requestStart_busy {l : Loader} (h : l.op ≠ none) (count : Half) :
    l.requestStart count = { l with pendingStart := some count } := by
  unfold Loader.requestStart
  split
  · exact absurd ‹_› h
  · rfl

/-- A new own start count with everything that R14 or R121 then re-stamps. -/
theorem County.newStart_spec (c : Ctx) (k : County) (start : Half) : ∃ q v, (k.setOwnStart c start).restampAll c =
      { k with
        toQueueSide := q, view := v, ownStart := start, baseChange := 1
        nextChange := 1 + BitVec.ofNat 16 (k.view.filter (·.own)).length
        roll := rollSet k.roll c.number { rollGet k.roll c.number with newest := some start }
        loader := k.loader.requestStart start } ∧
    ∀ x ∈ q.queue, x.item.origin = c.number → x.item.start = start :=
  County.restampAll_spec c (k.setOwnStart c start)

/-! ## An acknowledgement heard leaves the own stamps alone -/

theorem County.handOutcome_keeps (c : Ctx) (o p : Nat) (st : Stamp) (earlier : List (Nat × Stamp)) (out : MergeOutcome)
    (k : County) : ∃ v, k.handOutcome c o p st earlier out = { k with toViewSide := v } := by
  have hcorrect : ∀ k : County, ∃ q, k.correct c o p = { k with toQueueSide := q } := fun k => by
    unfold County.correct
    split
    · exact ⟨k.toQueueSide, rfl⟩
    · split
      · exact ⟨_, rfl⟩
      · exact ⟨k.toQueueSide, rfl⟩
  cases out with
  | outdated =>
    obtain ⟨q, hq⟩ := hcorrect (k.count .staleHeard)
    exact ⟨_, hq⟩
  | _ => exact ⟨_, rfl⟩

theorem County.hearAck_keeps (c : Ctx) (a : AckNews) (k : County) : ∃ v, k.hearAck c a = { k with toViewSide := v } := by
  rw [County.hearAck_eq]
  obtain ⟨v, hv⟩ := County.handOutcome_keeps c a.origin a.point a.stamp [] (mergeAckItem c a k.toViewSide).2
    { k with toViewSide := (mergeAckItem c a k.toViewSide).1 }
  have hrelay : ∀ (k' : County) i sev, ∃ q, k'.relay c a.hop i sev = { k' with toQueueSide := q } := fun k' i sev => by
    rw [County.relay_eq]
    split
    · exact ⟨k'.toQueueSide, rfl⟩
    · exact ⟨_, rfl⟩
  simp only [hv]
  split
  · split
    · exact ⟨v, rfl⟩
    · rename_i e _
      obtain ⟨q, hq⟩ := hrelay { k with toViewSide := v } (.ack { a with hop := a.hop - 1 }) e.severity
      exact ⟨_, hq⟩
  · exact ⟨v, rfl⟩

/-! ## Own items heard (R120, R121) -/

theorem County.ownChangeHeard_eq (x : Half) (k : County) : k.ownChangeHeard x =
    if countNewer x (k.nextChange - 1) = true then { k with nextChange := x + 1, stampConflict := true } else k := rfl

theorem countNewer_self (a : Half) : countNewer a a = false := by
  simp [countNewer]

/-- A heard own change number is not newer than the newest own one then is (R120). -/
theorem County.ownChangeHeard_newest (x : Half) (k : County) :
    (k.ownChangeHeard x).ownStart = k.ownStart ∧ countNewer x ((k.ownChangeHeard x).nextChange - 1) = false := by
  rw [County.ownChangeHeard_eq]
  split
  · refine ⟨rfl, ?_⟩
    show countNewer x (x + 1 - 1) = false
    rw [BitVec.add_sub_cancel]
    exact countNewer_self x
  · rename_i h
    exact ⟨rfl, Bool.eq_false_iff.2 h⟩

theorem countNewer_succ_false (a : Half) : countNewer a (a + 1) = false := by
  simp only [countNewer, decide_eq_false_iff_not]
  bv_omega

theorem countNewer_succ {a b : Half} (h : countNewer a b = true) (hne : (a - b).toNat ≠ 32767) :
    countNewer (a + 1) b = true := by
  simp only [countNewer, decide_eq_true_eq] at h ⊢
  bv_omega

theorem half_ne_succ (a : Half) : a ≠ a + 1 := by
  bv_omega

section Own

variable {i : Item}

theorem County.hearOwn_fault {f : FaultNews} (h : (Item.fault f).start = k.ownStart) :
    k.hearOwn c (.fault f) = k.ownChangeHeard f.stamp.change := if_pos h

theorem County.hearOwn_compact {n : CompactNews} (h : (Item.compact n).start = k.ownStart) :
    k.hearOwn c (.compact n) = n.points.foldl (fun k y => k.ownChangeHeard y.change) k := if_pos h

theorem County.hearOwn_ack {a : AckNews} (h : (Item.ack a).start = k.ownStart) :
    k.hearOwn c (.ack a) = (k.ownChangeHeard a.stamp.change).hearAck c a := if_pos h

theorem County.hearOwn_alive {a : AliveNews} (h : (Item.alive a).start = k.ownStart) :
    k.hearOwn c (.alive a) = k := if_pos h

theorem County.hearOwn_newer (h : countNewer i.start k.ownStart = true) : k.hearOwn c i = k.recoverStart c i.start := by
  have hne : i.start ≠ k.ownStart := fun heq => by
    rw [heq, countNewer_self] at h
    nomatch h
  unfold County.hearOwn
  rw [if_neg hne, if_pos h]

/-- The recovery from a heard start count (R121). -/
theorem County.recoverStart_spec (c : Ctx) (heard : Half) (k : County) : ∃ q v, k.recoverStart c heard =
      { k with
        toQueueSide := q, view := v, ownStart := heard + 1, baseChange := 1, stampConflict := true
        nextChange := 1 + BitVec.ofNat 16 (k.view.filter (·.own)).length
        roll := rollSet k.roll c.number { rollGet k.roll c.number with newest := some (heard + 1) }
        loader := k.loader.requestStart (heard + 1) } ∧
    ∀ x ∈ q.queue, x.item.origin = c.number → x.item.start = heard + 1 :=
  County.newStart_spec c { k with stampConflict := true } (heard + 1)

/-- Whatever own item is heard, a stamp of it at a start count is not newer than the newest own stamp then is. -/
theorem County.hearOwn_newest {st : Stamp} (hst : st.start = i.start)
    (hchange : i.start = k.ownStart → countNewer st.change ((k.hearOwn c i).nextChange - 1) = false ∧
      (k.hearOwn c i).ownStart = k.ownStart) :
    st.newer ⟨(k.hearOwn c i).ownStart, (k.hearOwn c i).nextChange - 1⟩ = false := by
  by_cases hsame : i.start = k.ownStart
  · obtain ⟨hnot, hown⟩ := hchange hsame
    unfold Stamp.newer
    rw [if_pos (by rw [hst, hsame, hown])]
    exact hnot
  · cases hnew : countNewer i.start k.ownStart with
    | false =>
      rw [County.hearOwn_of_not_newer hsame hnew]
      unfold Stamp.newer
      rw [if_neg (by rw [hst]; exact hsame), hst]
      exact hnew
    | true =>
      obtain ⟨q, v, hrecover, -⟩ := County.recoverStart_spec c i.start k
      rw [County.hearOwn_newer hnew, hrecover]
      unfold Stamp.newer
      rw [if_neg (by rw [hst]; exact half_ne_succ i.start), hst]
      exact countNewer_succ_false i.start

end Own

/-! ## The roll and heard headers (R112, R113) -/

section Header

variable {o : Nat} {start : Half}

theorem County.takeStart_first (h : (rollGet k.roll o).newest = none) : k.takeStart c o start =
    { k with roll := rollSet k.roll o { rollGet k.roll o with newest := some start, lastHeard := c.now } } := by
  simp only [County.takeStart, County.record, h]
  rfl

theorem County.takeStart_known {n : Half} (h : (rollGet k.roll o).newest = some n) : k.takeStart c o start =
    if start = n then k else if countTakenNewer start n then k.advanceEpoch c o start else k := by
  simp only [County.takeStart, County.record, h]

theorem County.rollGet_notePrior (h1 : 1 ≤ o) (h240 : o ≤ 240) (prior : Vector RollRecord 240) (p : Nat) :
    rollGet (k.notePrior o start prior) p =
      if p = o ∧ ((rollGet k.roll o).newest = none ∨
        ∃ n, (rollGet k.roll o).newest = some n ∧ start ≠ n ∧ countTakenNewer start n = true)
      then ⟨none, 0, 0, false⟩ else rollGet prior p := by
  by_cases hnews : k.newsOfStart o start
  · rw [County.notePrior_news prior hnews]
    by_cases hp : p = o
    · rw [if_pos ⟨hp, hnews⟩, hp]
      exact rollGet_rollSet_self _ _ ⟨h1, h240⟩
    · rw [if_neg fun h => hp h.1]
      exact rollGet_rollSet_ne _ _ (Ne.symm hp)
  · rw [County.notePrior_keeps prior hnews, if_neg fun h => hnews h.2]

theorem County.takeHeader_current (h : (rollGet (k.takeStart c o start).roll o).newest = some start) :
    k.takeHeader c o start = { (k.takeStart c o start).evidence c o with
      roll := rollSet ((k.takeStart c o start).evidence c o).roll o
        { rollGet ((k.takeStart c o start).evidence c o).roll o with
          heardDirect := (rollGet (k.takeStart c o start).roll o).heardDirect + 1 } } := if_pos h

theorem County.takeHeader_back {n : Half} (h : (rollGet k.roll o).newest = some n) (hne : start ≠ n)
    (hold : countTakenNewer start n = false) : k.takeHeader c o start = (k.view.filter fun e =>
      e.origin == o && !e.localOnly && e.stamp.any (·.start == n)).foldl (fun k e => k.correct c e.origin e.point) k := by
  have hsame : k.takeStart c o start = k := by
    rw [County.takeStart_known h, if_neg hne, hold]
    rfl
  have hfilter : (k.view.filter fun e => e.origin == o && !e.localOnly && e.stamp.map (·.start) == some n) =
      k.view.filter fun e => e.origin == o && !e.localOnly && e.stamp.any (·.start == n) := by
    refine List.filter_congr fun e _ => ?_
    cases e.stamp <;> rfl
  have hheader : k.takeHeader c o start =
      (k.view.filter fun e => e.origin == o && !e.localOnly && e.stamp.map (·.start) == (rollGet k.roll o).newest).foldl
        (fun k e => k.correct c e.origin e.point) k := by
    unfold County.takeHeader
    rw [hsame]
    exact if_neg (by rw [County.record, h]; exact fun heq => hne (Option.some.inj heq).symm)
  rw [hheader, h, hfilter]

end Header

/-! ## A new own stamp (R13) -/

theorem County.takeStamp_advances (h : 32767 < (k.nextChange - k.baseChange).toNat) : k.takeStamp c =
    ({ k.advanceStart c with nextChange := (k.advanceStart c).nextChange + 1 },
      ⟨(k.advanceStart c).ownStart, (k.advanceStart c).nextChange⟩) := by
  simp only [County.takeStamp]
  rw [if_neg (by omega)]

/-- Settles O50: the header by what the roll holds, own items by their start count, the advance by `County.newStart_spec`. -/
theorem ownStampsStayNewest : Obligations.OwnStampsStayNewest := by
  unfold Obligations.OwnStampsStayNewest
  refine ⟨fun c k o start items h1 h240 => ?_, fun c k prior i start items => ⟨?_, fun hi => ?_⟩, fun c k => ⟨fun h => ?_,
    fun h h1 h240 => ?_⟩⟩
  · intro r known
    refine ⟨County.takeStart_first, fun n hn => ⟨fun heq => ?_, fun hne hnew => ?_, fun hne hold => ?_⟩,
      fun p prior => County.rollGet_notePrior h1 h240 prior p, ⟨County.takeHeader_current,
      fun n hn hne hold => County.takeHeader_back hn hne hold⟩, fun ho => if_neg ho⟩
    · rw [County.takeStart_known hn, if_pos heq]
    · rw [County.takeStart_known hn, if_neg hne, if_pos hnew]
    · rw [County.takeStart_known hn, if_neg hne, if_neg (by rw [hold]; nofun)]
  · exact if_pos rfl
  · intro t bump
    have ht : t = k.hearOwn c i := County.hearItem_of_own prior hi
    rw [ht]
    refine ⟨fun hstart => ⟨fun f hf => ?_, fun n hn => ?_, fun a ha => ?_, fun a ha => ?_⟩, fun st hst => ?_,
      fun hne hnot => County.hearOwn_of_not_newer hne hnot, fun hnew => ?_, fun hnew h1 h240 => ?_⟩
    · subst hf
      exact County.hearOwn_fault hstart
    · subst hn
      exact County.hearOwn_compact hstart
    · subst ha
      exact County.hearOwn_ack hstart
    · subst ha
      exact County.hearOwn_alive hstart
    · rcases hst with ⟨f, rfl, rfl⟩ | ⟨a, rfl, rfl⟩
      · refine County.hearOwn_newest rfl fun hstart => ?_
        rw [County.hearOwn_fault hstart]
        exact (County.ownChangeHeard_newest f.stamp.change k).symm
      · refine County.hearOwn_newest rfl fun hstart => ?_
        rw [County.hearOwn_ack hstart]
        obtain ⟨v, hv⟩ := County.hearAck_keeps c a (k.ownChangeHeard a.stamp.change)
        simp only [hv]
        exact (County.ownChangeHeard_newest a.stamp.change k).symm
    · obtain ⟨q, v, hrecover, -⟩ := County.recoverStart_spec c i.start k
      rw [County.hearOwn_newer hnew, hrecover]
      exact ⟨countTakenNewer_succ hnew, countNewer_succ hnew⟩
    · obtain ⟨q, v, hrecover, hqueue⟩ := County.recoverStart_spec c i.start k
      rw [County.hearOwn_newer hnew, hrecover]
      refine ⟨rfl, rfl, rfl, ?_, rfl, fun hop => Loader.requestStart_free hop _, fun hop => Loader.requestStart_busy hop _,
        fun x hx ho _ => hqueue x hx ho⟩
      exact congrArg RollRecord.newest (rollGet_rollSet_self k.roll { rollGet k.roll c.number with
        newest := some (i.start + 1) } ⟨h1, h240⟩)
  · simp only [County.takeStamp]
    rw [if_pos h]
  · intro n
    obtain ⟨q, v, hadvance, -⟩ := County.newStart_spec c k (k.ownStart + 1)
    have hstamp := County.takeStamp_advances (c := c) h
    rw [show k.advanceStart c = _ from hadvance] at hstamp
    rw [hstamp]
    refine ⟨rfl, rfl, rfl, rfl, ?_, fun hop => Loader.requestStart_free hop _⟩
    exact congrArg RollRecord.newest (rollGet_rollSet_self k.roll { rollGet k.roll c.number with
      newest := some (k.ownStart + 1) } ⟨h1, h240⟩)

end Sys2Proof.Machine
